-- ==== Sys2Proof/Word.lean ====
section
/-! DEFINITION. The widths of the machine's values (spec/00_scope.md R5, R6; spec/10_state.md R20). Every value
is unsigned (R6), bit 0 is the least significant bit. -/

namespace Sys2Proof

/-- A general register, a timer or a memory cell: 8 bits (`REG_W`, `TIMER_W`). -/
abbrev Byte := BitVec 8

/-- The index register, the program counter, a stack entry or an instruction word: 16 bits. -/
abbrev Word := BitVec 16

/-- The `x` or `y` field, an index of one of the 16 general registers; every value is legal (R21, R94). -/
abbrev RegIdx := BitVec 4

/-- The `n` field: a 4-bit immediate (R92). -/
abbrev Nibble := BitVec 4

/-- The `nnn` field: a 12-bit address (R92). -/
abbrev Addr12 := BitVec 12

end Sys2Proof
end

