-- ==== Sys2Proof/Config.lean ====
section
/-! DEFINITION. What one machine fixes: the named sizes of spec/00_scope.md R5 that the definitions use by name, and
the one free value, the source of the random byte (`RANDOM_SOURCE`, OPEN). `TICK_SCHEDULE`, the other OPEN parameter,
is no constant here: Tick is a transition of its own that may stand anywhere between steps (Machine/HostEvents.lean).
The remaining sizes of R5 are the types' own: `NREGS` 16, `STACK_DEPTH` 24, `NKEYS` 16 in Machine/State.lean, the
widths in Word.lean. -/

namespace Sys2Proof

/-- `MEM_SIZE`: bytes of memory, addresses 0..4095. -/
abbrev Config.memSize : Nat := 4096

/-- `PROG_BASE`: reset value of PC and load address of the program image. -/
abbrev Config.progBase : Nat := 0x200

/-- `STACK_DEPTH`: entries of the call stack. -/
abbrev Config.stackDepth : Nat := 24

/-- `FLAG_REG`: the register that is also the flag, VF. -/
abbrev Config.flagReg : RegIdx := 0xF#4

/-- `DISP_W`: pixel columns. -/
abbrev Config.dispW : Nat := 64

/-- `DISP_H`: pixel rows. -/
abbrev Config.dispH : Nat := 32

/-- `SPRITE_W`: columns of a sprite row. -/
abbrev Config.spriteW : Nat := 8

/-- `NKEYS`: bits of the key latch. -/
abbrev Config.nKeys : Nat := 16

/-- `GLYPH_STRIDE`: multiplier of the glyph-address instruction. -/
abbrev Config.glyphStride : Nat := 5

/-- `INSTR_BYTES`: bytes per instruction. -/
abbrev Config.instrBytes : Nat := 2

/-- `RANDOM_SOURCE`: the byte each RND draws, by the number of draws made before it. A free value: it has no body, so
nothing can be proved of any byte of it (spec/43_index_random.md R161: a free input "under no law"; DESIGN CHOICE, log entry 1). -/
opaque Config.randomSource : Nat → Byte

end Sys2Proof
end

