-- ==== Sys2Proof/Machine/State.lean ====
section
/-! DEFINITION. The state of the machine (spec/10_state.md R20, with the FAULT record of R34), the state after reset
(R38, 70_reset_and_hazards.md R230), and the reasons a transition can stop. -/

namespace Sys2Proof.Machine

/-- The three causes of a fatal error (60_exceptions.md R202). -/
inductive Cause where
  | stackOverflow
  | stackUnderflow
  | memOutOfBounds
  deriving DecidableEq, Repr

/-- The FAULT record (R34): what failed, the PC and the word of the fatal step (word 0 when the fetch itself failed),
and the offending address, or SP for the two stack causes. -/
structure FaultRecord where
  cause : Cause
  pc : Word
  word : Word
  addr : BitVec 17
  deriving DecidableEq, Repr

/-- A decode warning: the address and the bits of an unrecognized word (60_exceptions.md R206). -/
structure Warning where
  pc : Word
  word : Word
  deriving DecidableEq, Repr

/-- Byte memory: the (address, byte) pairs of the cells that are not 0. An address not listed reads 0, the spec's reset
content of every cell (R38). Canonical form: `Memory.wf` in Machine/Ops.lean. -/
abbrev Memory := List Host.Cell

/-- The pixel grid: 32 rows of 64 one-bit pixels (R36). Pixel `DISP[py][px]` is bit `px` of row `py` (DESIGN CHOICE, log entry 12). -/
abbrev Display := Vector (BitVec 64) 32

/-- The whole state. The first twelve fields are the rows of R20; `draws` and `warnings` are the model's own. -/
structure State where
  /-- `V[0..15]`, the general registers; `V[15]` is also the flag (R21, R22). -/
  v : Vector Byte 16
  /-- `I`, the index register (R27). -/
  i : Word
  /-- `PC`: the address of the instruction the step fetches, unchanged while its handler runs (R24). -/
  pc : Word
  /-- `STACK[0..23]`, saved return addresses, no part of memory (R28). -/
  stack : Vector Word 24
  /-- `SP`, the index of the next free entry, 0..24 (R29; DEDUCED, log entry 3). -/
  sp : Fin 25
  /-- `DT`, the delay timer (R30). -/
  dt : Byte
  /-- `ST`, the sound timer (R30). -/
  st : Byte
  /-- `KEYS`, the key latch: bit n is set iff key n is held (R31). -/
  keys : BitVec 16
  /-- `MEM[0..4095]` (20_memory.md R60). -/
  mem : Memory
  /-- `DISP` (R36). -/
  disp : Display
  /-- `DIRTY` (R37). -/
  dirty : Bool
  /-- `FAULT` (R34). -/
  fault : Option FaultRecord
  /-- The model's own: how many bytes RND has drawn, the index of the next one in `Config.randomSource` (DESIGN CHOICE, log entry 1). -/
  draws : Nat
  /-- The model's own: the decode warnings reported since reset, newest first (R206; DESIGN CHOICE, log entry 2). -/
  warnings : List Warning
  deriving DecidableEq, Repr

/-- Why a request for a transition finds the machine stopped. -/
inductive Fault where
  /-- Raised by a Step requested while FAULT is set: Step is not enabled, "the core executes nothing further"
  (60_exceptions.md R211). Carries the FAULT record. Safe: the spec's own terminal condition. -/
  | halted (record : FaultRecord)
  deriving DecidableEq, Repr

/-- Why a transition is refused. -/
inductive Refusal where
  /-- An instruction without a meaning yet; no arm of `exec` answers it now. Safe. -/
  | notModelled (mnemonic : String)
  /-- Raised by HostLoad of an image that does not fit: "the spec refuses such an image" (70_reset_and_hazards.md
  R233). Safe. -/
  | imageTooLong (length : Nat)
  /-- Raised by HostLoad after the first Step following a Reset: HostLoad is not enabled there (R233, 20_memory.md
  R74). Safe for the core; the log says what it assumes of the host (DEDUCED, log entry 16). -/
  | loadAfterFirstStep
  deriving DecidableEq, Repr

/-- The state after reset: "all fields zeroed except PC = 0x200 and dirty = true" (R38). The model's own `draws` and
`warnings` start at 0 and empty (DESIGN CHOICE, log entries 1 and 2). -/
def State.reset : State where
  v := Vector.replicate 16 0
  i := 0
  pc := BitVec.ofNat 16 Config.progBase
  stack := Vector.replicate 24 0
  sp := 0
  dt := 0
  st := 0
  keys := 0
  mem := []
  disp := Vector.replicate 32 0
  dirty := true
  fault := none
  draws := 0
  warnings := []

end Sys2Proof.Machine
end

