-- ==== Sys2Proof/Machine/Ops.lean ====
section
/-! DEFINITION. The named operations over registers, memory, display and stack, the program-counter updates, and the
one way a step ends fatal. -/

namespace Sys2Proof.Machine

/-! Memory cells. -/

/-- `MEM[a]`: the listed byte, or 0 (10_state.md R38). -/
def Memory.read : Memory → Nat → Byte
  | [], _ => 0
  | (b, w) :: m, a => if a = b then w else Memory.read m a

/-- Lists the byte `v`, not 0, at address `a`. -/
def Memory.insert : Memory → Nat → Byte → Memory
  | [], a, v => [(a, v)]
  | (b, w) :: m, a, v =>
    if a < b then (a, v) :: (b, w) :: m
    else if a = b then (a, v) :: m
    else (b, w) :: Memory.insert m a v

/-- `MEM[a] <- v`; a cell that becomes 0 is no longer listed. -/
def Memory.write (m : Memory) (a : Nat) (v : Byte) : Memory :=
  if v = 0 then m.filter (fun c => c.1 ≠ a) else Memory.insert m a v

/-- `MEM[a], MEM[a+1], ... <- vs`, one byte at a time in ascending order (20_memory.md R64). -/
def Memory.writeList : Memory → Nat → List Byte → Memory
  | m, _, [] => m
  | m, a, v :: vs => Memory.writeList (Memory.write m a v) (a + 1) vs

/-- The canonical form: addresses strictly rising, all of them existing, and no listed byte 0. -/
abbrev Memory.wf (m : Memory) : Prop :=
  m.Pairwise (fun p q => p.1 < q.1) ∧ ∀ p ∈ m, p.1 < Config.memSize ∧ p.2 ≠ 0

/-- Replaces the memory. -/
def State.setMem (s : State) (m : Memory) : State := { s with mem := m }

/-! The checked memory primitives. The error is the address that `raise Fatal(MemOutOfBounds, addr)` reports. -/

/-- `MemRead(addr, 1)` (R61); the address is a natural number, not wrapped (R67; DEDUCED, log entry 18). -/
def memRead (s : State) (a : Nat) : Except Nat Byte :=
  if Config.memSize ≤ a then .error a else .ok (s.mem.read a)

/-- `MemWrite(addr, 1, v)` (R61). -/
def memWrite (s : State) (a : Nat) (v : Byte) : Except Nat State :=
  if Config.memSize ≤ a then .error a else .ok (s.setMem (s.mem.write a v))

/-- The address reported for a group of `n` bytes from `base`: none if all of them exist, else the lowest that does
not, `max(base, 4096)` (45_memory_transfer.md R183). A group of no bytes is not checked (40_display.md R121 (a);
DEDUCED, log entry 14). -/
def blockFault (base n : Nat) : Option Nat :=
  if 0 < n ∧ Config.memSize - 1 < base + (n - 1) then some (max base Config.memSize) else none

/-- The `n` bytes from `base` upwards, all addresses checked first (R183). -/
def memReadBlock (s : State) (base n : Nat) : Except Nat (List Byte) :=
  match blockFault base n with
  | some a => .error a
  | none => .ok ((List.range n).map (fun k => s.mem.read (base + k)))

/-- Stores `vs` from `base` upwards, all addresses checked before the first write (R183). -/
def memWriteBlock (s : State) (base : Nat) (vs : List Byte) : Except Nat State :=
  match blockFault base vs.length with
  | some a => .error a
  | none => .ok (s.setMem (s.mem.writeList base vs))

/-! Registers. -/

/-- `V[x]` (R7, R21). -/
def State.reg (s : State) (x : RegIdx) : Byte := s.v[x.toNat]'(x.isLt)

/-- `V[x] <- b` (R7, R21). No register is hardwired. -/
def State.setReg (s : State) (x : RegIdx) (b : Byte) : State :=
  { s with v := s.v.set x.toNat b x.isLt }

/-- Loads `V[k], V[k+1], ...` from a list of bytes, in ascending order. -/
def State.loadRegs : State → Nat → List Byte → State
  | s, _, [] => s
  | s, k, b :: bs => State.loadRegs (s.setReg (BitVec.ofNat 4 k) b) (k + 1) bs

/-- `I <- w` (R27). -/
def State.setIndex (s : State) (w : Word) : State := { s with i := w }

/-- `DT <- b` (R30). -/
def State.setDelay (s : State) (b : Byte) : State := { s with dt := b }

/-- `ST <- b` (R30). -/
def State.setSound (s : State) (b : Byte) : State := { s with st := b }

/-- The next byte of the random source is consumed (43_index_random.md R161; DESIGN CHOICE, log entry 1). -/
def State.countDraw (s : State) : State := { s with draws := s.draws + 1 }

/-- `warn(word)`: reports the PC and the word (60_exceptions.md R206; DESIGN CHOICE, log entry 2). -/
def State.warn (s : State) (w : Word) : State := { s with warnings := ⟨s.pc, w⟩ :: s.warnings }

/-! Program counter (R25, R26: additions reduced mod 2^16). -/

/-- `PC <- target`. -/
def State.setPc (s : State) (target : Word) : State := { s with pc := target }

/-- Fall through: `PC <- PC + 2`. -/
def State.advance (s : State) : State := s.setPc (s.pc + BitVec.ofNat 16 Config.instrBytes)

/-- A conditional skip: `PC <- PC + 4` if taken, else `PC + 2`. -/
def State.skipIf (s : State) (taken : Bool) : State :=
  s.setPc (if taken then s.pc + BitVec.ofNat 16 (2 * Config.instrBytes) else s.pc + BitVec.ofNat 16 Config.instrBytes)

/-! Call stack (R28, R29). -/

/-- `STACK[SP] <- w; SP <- SP + 1`, when the stack is not full. -/
def State.push (s : State) (w : Word) (room : s.sp.val < 24) : State :=
  { s with stack := s.stack.set s.sp.val w room, sp := ⟨s.sp.val + 1, Nat.succ_lt_succ room⟩ }

/-- `STACK[SP - 1]`, the newest entry in use; read only when the stack is not empty (41_control_flow.md R130). -/
def State.top (s : State) : Word :=
  s.stack[s.sp.val - 1]'(by have := s.sp.isLt; omega)

/-- `SP <- SP - 1`; the popped entry keeps its value (R28; DEDUCED, log entry 15). -/
def State.pop (s : State) : State :=
  { s with sp := ⟨s.sp.val - 1, Nat.lt_of_le_of_lt (Nat.sub_le _ _) s.sp.isLt⟩ }

/-! Display (R36). Coordinates are reduced mod 64 and mod 32 here (40_display.md R121, toroidal wrap). -/

/-- `DISP[py mod 32][px mod 64]`. -/
def Display.pixel (d : Display) (px py : Nat) : Bool :=
  (d[py % Config.dispH]'(Nat.mod_lt _ (by decide))).getLsbD (px % Config.dispW)

/-- `DISP[py mod 32][px mod 64] <- DISP[py mod 32][px mod 64] xor 1`. -/
def Display.toggle (d : Display) (px py : Nat) : Display :=
  d.set (py % Config.dispH)
    (d[py % Config.dispH]'(Nat.mod_lt _ (by decide)) ^^^ BitVec.twoPow 64 (px % Config.dispW))
    (Nat.mod_lt _ (by decide))

/-- All pixels 0. -/
def Display.blank : Display := Vector.replicate 32 0

/-- Replaces the pixels; DIRTY is set where `mark` says so and never cleared (R37). -/
def State.setDisplay (s : State) (d : Display) (mark : Bool) : State :=
  { s with disp := d, dirty := s.dirty || mark }

/-! The fatal outcome. It is this machine's only exception: nothing returns from it but Reset (60_exceptions.md R209). -/

/-- The numeric code of a cause (R34, R202). -/
def Cause.code : Cause → BitVec 2
  | .stackOverflow => 1
  | .stackUnderflow => 2
  | .memOutOfBounds => 3

/-- The `fault_cause` port: 0 encodes FAULT = none (R34, R218). -/
def State.faultCode (s : State) : BitVec 2 :=
  match s.fault with
  | none => 0
  | some r => r.cause.code

/-- `raise Fatal(cause, addr)` in a step whose instruction word is `word`: FAULT is written with the PC of the step, and
nothing else changes (60_exceptions.md R201; DEDUCED, log entry 4). -/
def State.raiseFatal (s : State) (cause : Cause) (word : Word) (addr : Nat) : State :=
  { s with fault := some ⟨cause, s.pc, word, BitVec.ofNat 17 addr⟩ }

end Sys2Proof.Machine
end

