-- ==== Sys2Proof/Machine/Flags.lean ====
section
/-! DEFINITION. The flag values of VF (spec/10_state.md R22, R23; 42_alu.md R146 to R152) and the order in which a
flag and a result are written (R151). -/

namespace Sys2Proof.Machine

/-- A flag as the byte a handler writes to VF: 0x00 or 0x01 (10_state.md R22). -/
def flagByte (b : Bool) : Byte := if b then 1 else 0

/-- ADD_REG: the 9-bit sum exceeds 255 (42_alu.md R146). -/
def carryOut (vx vy : Byte) : Bool := decide (255 < vx.toNat + vy.toNat)

/-- SUB and SUBN: `a >= b`, no borrow (42_alu.md R147, R149). -/
def notBorrow (a b : Byte) : Bool := decide (b.toNat ≤ a.toNat)

/-- SHR: the evicted low bit (42_alu.md R148). -/
def shiftedOutLow (vx : Byte) : Bool := vx.getLsbD 0

/-- SHL: the evicted high bit (42_alu.md R150). -/
def shiftedOutHigh (vx : Byte) : Bool := vx.getLsbD 7

/-- The write order of the flag-writing instructions: the flag to VF first, the result to Vx second, so that with
x = 0xF the result remains (42_alu.md R151 (b), DEDUCED, log entry 6). Both arguments are computed from the state before (R151 (a)). -/
def State.writeFlagThenResult (s : State) (x : RegIdx) (flag : Bool) (result : Byte) : State :=
  (s.setReg Config.flagReg (flagByte flag)).setReg x result

end Sys2Proof.Machine
end

