-- ==== Sys2Proof/Machine/Alu.lean ====
section
/-! DEFINITION. The register-immediate and register-register instructions (spec/42_alu.md R140 to R152). Operands are
sampled before any write (R151 (a)); every one falls through. -/

namespace Sys2Proof.Machine

/-- LD Vx, kk (R140). -/
def execLdKk (x : RegIdx) (kk : Byte) (s : State) : Host.Outcome State Fault Refusal :=
  .next (s.setReg x kk).advance

/-- ADD Vx, kk: mod 256, no flag (R141). -/
def execAddKk (x : RegIdx) (kk : Byte) (s : State) : Host.Outcome State Fault Refusal :=
  .next (s.setReg x (s.reg x + kk)).advance

/-- LD Vx, Vy (R142). -/
def execLdReg (x y : RegIdx) (s : State) : Host.Outcome State Fault Refusal :=
  .next (s.setReg x (s.reg y)).advance

/-- OR Vx, Vy: VF is not touched (R143). -/
def execOrReg (x y : RegIdx) (s : State) : Host.Outcome State Fault Refusal :=
  .next (s.setReg x (s.reg x ||| s.reg y)).advance

/-- AND Vx, Vy (R144). -/
def execAndReg (x y : RegIdx) (s : State) : Host.Outcome State Fault Refusal :=
  .next (s.setReg x (s.reg x &&& s.reg y)).advance

/-- XOR Vx, Vy (R145). -/
def execXorReg (x y : RegIdx) (s : State) : Host.Outcome State Fault Refusal :=
  .next (s.setReg x (s.reg x ^^^ s.reg y)).advance

/-- ADD Vx, Vy: VF is the carry (R146). -/
def execAddReg (x y : RegIdx) (s : State) : Host.Outcome State Fault Refusal :=
  .next (s.writeFlagThenResult x (carryOut (s.reg x) (s.reg y)) (s.reg x + s.reg y)).advance

/-- SUB Vx, Vy: VF is 1 for no borrow (R147). -/
def execSub (x y : RegIdx) (s : State) : Host.Outcome State Fault Refusal :=
  .next (s.writeFlagThenResult x (notBorrow (s.reg x) (s.reg y)) (s.reg x - s.reg y)).advance

/-- SHR Vx: logical, of Vx; the y field is ignored (R148; DEDUCED, log entry 15). -/
def execShr (x _y : RegIdx) (s : State) : Host.Outcome State Fault Refusal :=
  .next (s.writeFlagThenResult x (shiftedOutLow (s.reg x)) (s.reg x >>> 1)).advance

/-- SUBN Vx, Vy: Vy - Vx into Vx (R149). -/
def execSubn (x y : RegIdx) (s : State) : Host.Outcome State Fault Refusal :=
  .next (s.writeFlagThenResult x (notBorrow (s.reg y) (s.reg x)) (s.reg y - s.reg x)).advance

/-- SHL Vx: of Vx; the y field is ignored (R150; DEDUCED, log entry 15). -/
def execShl (x _y : RegIdx) (s : State) : Host.Outcome State Fault Refusal :=
  .next (s.writeFlagThenResult x (shiftedOutHigh (s.reg x)) (s.reg x <<< 1)).advance

end Sys2Proof.Machine
end

