-- ==== Sys2Proof/Syntax.lean ====
section
/-! DEFINITION. The 34 instructions of spec/30_encoding.md R96 (spec/opcode_table.json), one constructor per row in
the table's order, with the fields R92 gives each. A word that matches no row is no instruction: the decoder answers
`unrecognized` for it (Decode.lean, R97, R99). -/

namespace Sys2Proof

inductive Instr where
  /-- `00E0` CLS, R120. -/
  | cls
  /-- `00EE` RET, R130. -/
  | ret
  /-- `1nnn` JP nnn, R131. -/
  | jp (nnn : Addr12)
  /-- `2nnn` CALL nnn, R132. -/
  | call (nnn : Addr12)
  /-- `3xkk` SE Vx, kk, R133. -/
  | seKk (x : RegIdx) (kk : Byte)
  /-- `4xkk` SNE Vx, kk, R134. -/
  | sneKk (x : RegIdx) (kk : Byte)
  /-- `5xy0` SE Vx, Vy, R135. -/
  | seReg (x y : RegIdx)
  /-- `6xkk` LD Vx, kk, R140. -/
  | ldKk (x : RegIdx) (kk : Byte)
  /-- `7xkk` ADD Vx, kk, R141. -/
  | addKk (x : RegIdx) (kk : Byte)
  /-- `8xy0` LD Vx, Vy, R142. -/
  | ldReg (x y : RegIdx)
  /-- `8xy1` OR Vx, Vy, R143. -/
  | orReg (x y : RegIdx)
  /-- `8xy2` AND Vx, Vy, R144. -/
  | andReg (x y : RegIdx)
  /-- `8xy3` XOR Vx, Vy, R145. -/
  | xorReg (x y : RegIdx)
  /-- `8xy4` ADD Vx, Vy, R146. -/
  | addReg (x y : RegIdx)
  /-- `8xy5` SUB Vx, Vy, R147. -/
  | sub (x y : RegIdx)
  /-- `8xy6` SHR Vx, R148; the `y` field is decoded and has no effect. -/
  | shr (x y : RegIdx)
  /-- `8xy7` SUBN Vx, Vy, R149. -/
  | subn (x y : RegIdx)
  /-- `8xyE` SHL Vx, R150; the `y` field is decoded and has no effect. -/
  | shl (x y : RegIdx)
  /-- `9xy0` SNE Vx, Vy, R136. -/
  | sneReg (x y : RegIdx)
  /-- `Annn` LD I, nnn, R160. -/
  | ldI (nnn : Addr12)
  /-- `Bnnn` JP V0, nnn, R137. -/
  | jpV0 (nnn : Addr12)
  /-- `Cxkk` RND Vx, kk, R161. -/
  | rnd (x : RegIdx) (kk : Byte)
  /-- `Dxyn` DRW Vx, Vy, n, R121. -/
  | drw (x y : RegIdx) (n : Nibble)
  /-- `Ex9E` SKP Vx, R170. -/
  | skp (x : RegIdx)
  /-- `ExA1` SKNP Vx, R171. -/
  | sknp (x : RegIdx)
  /-- `Fx07` LD Vx, DT, R172. -/
  | ldVxDt (x : RegIdx)
  /-- `Fx0A` LD Vx, K, R173. -/
  | ldVxK (x : RegIdx)
  /-- `Fx15` LD DT, Vx, R174. -/
  | ldDtVx (x : RegIdx)
  /-- `Fx18` LD ST, Vx, R175. -/
  | ldStVx (x : RegIdx)
  /-- `Fx1E` ADD I, Vx, R162. -/
  | addIVx (x : RegIdx)
  /-- `Fx29` LD F, Vx, R163. -/
  | ldFVx (x : RegIdx)
  /-- `Fx33` LD B, Vx, R180. -/
  | ldBVx (x : RegIdx)
  /-- `Fx55` LD [I], Vx, R181. -/
  | ldMemVx (x : RegIdx)
  /-- `Fx65` LD Vx, [I], R182. -/
  | ldVxMem (x : RegIdx)
  deriving DecidableEq, Repr

end Sys2Proof
end

