-- ==== Sys2Proof/Decode.lean ====
section
/-! DEFINITION. Decoding and encoding (spec/30_encoding.md R90 to R99, R101). The decoder is a pure function of the
16-bit word (R92), total on all 65536 words (R95). -/

namespace Sys2Proof

/-- The decoder's output: one of the 34 instructions, or "unrecognized" with the word (R95, R99). -/
inductive Classification where
  | recognized (i : Instr)
  | unrecognized (word : Word)
  deriving DecidableEq, Repr

/-- Why a sequence of bytes gives no instruction. -/
inductive DecodeReject where
  /-- Fewer than the two bytes every instruction has (R90); `available` says how many are there. -/
  | truncated (available : Nat)
  /-- The word matches no row of the opcode map (R97). -/
  | unrecognized (word : Word)
  deriving DecidableEq, Repr

/-- The word of two bytes, the high one first (R91). -/
def joinBytes (hi lo : Byte) : Word := hi ++ lo

/-- The two bytes of a word as memory holds them, high byte first (R91). -/
def wordBytes (w : Word) : List Byte := [w.extractLsb' 8 8, w.extractLsb' 0 8]

/-- Format A: op in bits 15-12, nnn in bits 11-0 (R93). -/
def formatA (op : BitVec 4) (nnn : Addr12) : Word := op ++ nnn

/-- Formats K and X: op, x, and a low byte that is kk or the sub-opcode (R93). -/
def formatK (op : BitVec 4) (x : RegIdx) (low : Byte) : Word := op ++ x ++ low

/-- Formats R and D: op, x, y, and a low nibble that is the sub-opcode or n (R93). -/
def formatR (op : BitVec 4) (x y : RegIdx) (low : Nibble) : Word := op ++ x ++ y ++ low

/-- Bits 15-12, the primary group (R92). -/
def opField (w : Word) : BitVec 4 := w.extractLsb' 12 4
/-- Bits 11-8 (R92). -/
def xField (w : Word) : RegIdx := w.extractLsb' 8 4
/-- Bits 7-4 (R92). -/
def yField (w : Word) : RegIdx := w.extractLsb' 4 4
/-- Bits 3-0 (R92). -/
def nField (w : Word) : Nibble := w.extractLsb' 0 4
/-- Bits 7-0 (R92). -/
def kkField (w : Word) : Byte := w.extractLsb' 0 8
/-- Bits 11-0 (R92). -/
def nnnField (w : Word) : Addr12 := w.extractLsb' 0 12

/-- Group 0: only the two full words `00E0` and `00EE` (R95, R97). -/
def decodeGroup0 (w : Word) : Classification :=
  if w = 0x00E0#16 then .recognized .cls
  else if w = 0x00EE#16 then .recognized .ret
  else .unrecognized w

/-- Group 8: the low nibble selects; 0..7 and E are used (R95). -/
def decodeGroup8 (w : Word) : Classification :=
  match nField w with
  | 0x0#4 => .recognized (.ldReg (xField w) (yField w))
  | 0x1#4 => .recognized (.orReg (xField w) (yField w))
  | 0x2#4 => .recognized (.andReg (xField w) (yField w))
  | 0x3#4 => .recognized (.xorReg (xField w) (yField w))
  | 0x4#4 => .recognized (.addReg (xField w) (yField w))
  | 0x5#4 => .recognized (.sub (xField w) (yField w))
  | 0x6#4 => .recognized (.shr (xField w) (yField w))
  | 0x7#4 => .recognized (.subn (xField w) (yField w))
  | 0xE#4 => .recognized (.shl (xField w) (yField w))
  | _ => .unrecognized w

/-- Group E: the low byte selects (R95). -/
def decodeGroupE (w : Word) : Classification :=
  match kkField w with
  | 0x9E#8 => .recognized (.skp (xField w))
  | 0xA1#8 => .recognized (.sknp (xField w))
  | _ => .unrecognized w

/-- Group F: the low byte selects (R95). -/
def decodeGroupF (w : Word) : Classification :=
  match kkField w with
  | 0x07#8 => .recognized (.ldVxDt (xField w))
  | 0x0A#8 => .recognized (.ldVxK (xField w))
  | 0x15#8 => .recognized (.ldDtVx (xField w))
  | 0x18#8 => .recognized (.ldStVx (xField w))
  | 0x1E#8 => .recognized (.addIVx (xField w))
  | 0x29#8 => .recognized (.ldFVx (xField w))
  | 0x33#8 => .recognized (.ldBVx (xField w))
  | 0x55#8 => .recognized (.ldMemVx (xField w))
  | 0x65#8 => .recognized (.ldVxMem (xField w))
  | _ => .unrecognized w

/-- The decoding procedure of R95, strict everywhere (DEDUCED, log entry 19). The last arm is group 0xF, the one value of four bits left. -/
def decode (w : Word) : Classification :=
  match opField w with
  | 0x0#4 => decodeGroup0 w
  | 0x1#4 => .recognized (.jp (nnnField w))
  | 0x2#4 => .recognized (.call (nnnField w))
  | 0x3#4 => .recognized (.seKk (xField w) (kkField w))
  | 0x4#4 => .recognized (.sneKk (xField w) (kkField w))
  | 0x5#4 => if nField w = 0#4 then .recognized (.seReg (xField w) (yField w)) else .unrecognized w
  | 0x6#4 => .recognized (.ldKk (xField w) (kkField w))
  | 0x7#4 => .recognized (.addKk (xField w) (kkField w))
  | 0x8#4 => decodeGroup8 w
  | 0x9#4 => if nField w = 0#4 then .recognized (.sneReg (xField w) (yField w)) else .unrecognized w
  | 0xA#4 => .recognized (.ldI (nnnField w))
  | 0xB#4 => .recognized (.jpV0 (nnnField w))
  | 0xC#4 => .recognized (.rnd (xField w) (kkField w))
  | 0xD#4 => .recognized (.drw (xField w) (yField w) (nField w))
  | 0xE#4 => decodeGroupE w
  | _ => decodeGroupF w

/-- The instruction at the head of a sequence of bytes, high byte first (R91), with the bytes after it. -/
def decodeBytes : List Byte → Except DecodeReject (Instr × List Byte)
  | hi :: lo :: rest =>
    match decode (joinBytes hi lo) with
    | .recognized i => .ok (i, rest)
    | .unrecognized w => .error (.unrecognized w)
  | short => .error (.truncated short.length)

/-- The word of an instruction: its fields inserted at the positions of R92 into the row's match (R96, R101). -/
def encode : Instr → Word
  | .cls => 0x00E0#16
  | .ret => 0x00EE#16
  | .jp nnn => formatA 0x1#4 nnn
  | .call nnn => formatA 0x2#4 nnn
  | .seKk x kk => formatK 0x3#4 x kk
  | .sneKk x kk => formatK 0x4#4 x kk
  | .seReg x y => formatR 0x5#4 x y 0x0#4
  | .ldKk x kk => formatK 0x6#4 x kk
  | .addKk x kk => formatK 0x7#4 x kk
  | .ldReg x y => formatR 0x8#4 x y 0x0#4
  | .orReg x y => formatR 0x8#4 x y 0x1#4
  | .andReg x y => formatR 0x8#4 x y 0x2#4
  | .xorReg x y => formatR 0x8#4 x y 0x3#4
  | .addReg x y => formatR 0x8#4 x y 0x4#4
  | .sub x y => formatR 0x8#4 x y 0x5#4
  | .shr x y => formatR 0x8#4 x y 0x6#4
  | .subn x y => formatR 0x8#4 x y 0x7#4
  | .shl x y => formatR 0x8#4 x y 0xE#4
  | .sneReg x y => formatR 0x9#4 x y 0x0#4
  | .ldI nnn => formatA 0xA#4 nnn
  | .jpV0 nnn => formatA 0xB#4 nnn
  | .rnd x kk => formatK 0xC#4 x kk
  | .drw x y n => formatR 0xD#4 x y n
  | .skp x => formatK 0xE#4 x 0x9E#8
  | .sknp x => formatK 0xE#4 x 0xA1#8
  | .ldVxDt x => formatK 0xF#4 x 0x07#8
  | .ldVxK x => formatK 0xF#4 x 0x0A#8
  | .ldDtVx x => formatK 0xF#4 x 0x15#8
  | .ldStVx x => formatK 0xF#4 x 0x18#8
  | .addIVx x => formatK 0xF#4 x 0x1E#8
  | .ldFVx x => formatK 0xF#4 x 0x29#8
  | .ldBVx x => formatK 0xF#4 x 0x33#8
  | .ldMemVx x => formatK 0xF#4 x 0x55#8
  | .ldVxMem x => formatK 0xF#4 x 0x65#8

/-- The bytes of an instruction given as the opcode table numbers its bits: `nbits` bits of `w`, the rest zero. -/
def tableBytes (nbits w : Nat) : List Byte := wordBytes (BitVec.ofNat 16 (w % 2 ^ nbits))

/-- The instruction this decoder reads from a table word laid out as the hardware stores it. -/
def decodeTableWord (nbits w : Nat) : Option Instr :=
  match decodeBytes (tableBytes nbits w) with
  | .ok (i, _) => some i
  | .error _ => none

/-- The mnemonic of an instruction's row (R96, opcode_table.json). -/
def Instr.mnemonic : Instr → String
  | .cls => "CLS"
  | .ret => "RET"
  | .jp _ => "JP"
  | .call _ => "CALL"
  | .seKk _ _ => "SE_KK"
  | .sneKk _ _ => "SNE_KK"
  | .seReg _ _ => "SE_REG"
  | .ldKk _ _ => "LD_KK"
  | .addKk _ _ => "ADD_KK"
  | .ldReg _ _ => "LD_REG"
  | .orReg _ _ => "OR"
  | .andReg _ _ => "AND"
  | .xorReg _ _ => "XOR"
  | .addReg _ _ => "ADD_REG"
  | .sub _ _ => "SUB"
  | .shr _ _ => "SHR"
  | .subn _ _ => "SUBN"
  | .shl _ _ => "SHL"
  | .sneReg _ _ => "SNE_REG"
  | .ldI _ => "LD_I"
  | .jpV0 _ => "JP_V0"
  | .rnd _ _ => "RND"
  | .drw _ _ _ => "DRW"
  | .skp _ => "SKP"
  | .sknp _ => "SKNP"
  | .ldVxDt _ => "LD_VX_DT"
  | .ldVxK _ => "LD_VX_K"
  | .ldDtVx _ => "LD_DT_VX"
  | .ldStVx _ => "LD_ST_VX"
  | .addIVx _ => "ADD_I_VX"
  | .ldFVx _ => "LD_F_VX"
  | .ldBVx _ => "LD_B_VX"
  | .ldMemVx _ => "LD_MEM_VX"
  | .ldVxMem _ => "LD_VX_MEM"

/-- One row of the opcode map: the word `w` is the row's instruction iff `w and mask = pattern` (R96). -/
structure OpRow where
  mnemonic : String
  mask : Word
  pattern : Word
  deriving DecidableEq, Repr

/-- Rows 1 to 19 of R96. -/
def opcodeMapLow : List OpRow :=
  [ ⟨"CLS", 0xFFFF, 0x00E0⟩, ⟨"RET", 0xFFFF, 0x00EE⟩, ⟨"JP", 0xF000, 0x1000⟩, ⟨"CALL", 0xF000, 0x2000⟩,
    ⟨"SE_KK", 0xF000, 0x3000⟩, ⟨"SNE_KK", 0xF000, 0x4000⟩, ⟨"SE_REG", 0xF00F, 0x5000⟩,
    ⟨"LD_KK", 0xF000, 0x6000⟩, ⟨"ADD_KK", 0xF000, 0x7000⟩, ⟨"LD_REG", 0xF00F, 0x8000⟩,
    ⟨"OR", 0xF00F, 0x8001⟩, ⟨"AND", 0xF00F, 0x8002⟩, ⟨"XOR", 0xF00F, 0x8003⟩,
    ⟨"ADD_REG", 0xF00F, 0x8004⟩, ⟨"SUB", 0xF00F, 0x8005⟩, ⟨"SHR", 0xF00F, 0x8006⟩,
    ⟨"SUBN", 0xF00F, 0x8007⟩, ⟨"SHL", 0xF00F, 0x800E⟩, ⟨"SNE_REG", 0xF00F, 0x9000⟩ ]

/-- Rows 20 to 34 of R96. -/
def opcodeMapHigh : List OpRow :=
  [ ⟨"LD_I", 0xF000, 0xA000⟩, ⟨"JP_V0", 0xF000, 0xB000⟩, ⟨"RND", 0xF000, 0xC000⟩, ⟨"DRW", 0xF000, 0xD000⟩,
    ⟨"SKP", 0xF0FF, 0xE09E⟩, ⟨"SKNP", 0xF0FF, 0xE0A1⟩, ⟨"LD_VX_DT", 0xF0FF, 0xF007⟩,
    ⟨"LD_VX_K", 0xF0FF, 0xF00A⟩, ⟨"LD_DT_VX", 0xF0FF, 0xF015⟩, ⟨"LD_ST_VX", 0xF0FF, 0xF018⟩,
    ⟨"ADD_I_VX", 0xF0FF, 0xF01E⟩, ⟨"LD_F_VX", 0xF0FF, 0xF029⟩, ⟨"LD_B_VX", 0xF0FF, 0xF033⟩,
    ⟨"LD_MEM_VX", 0xF0FF, 0xF055⟩, ⟨"LD_VX_MEM", 0xF0FF, 0xF065⟩ ]

/-- The opcode map of R96, in its order (PRESUMED, log entry 7). -/
def opcodeMap : List OpRow := opcodeMapLow ++ opcodeMapHigh

end Sys2Proof
end

