-- ==== Sys2Proof/Machine/Operands.lean ====
section
/-! DEFINITION. The values instructions compute from their fields and registers: zero-extended immediates, the key
test, the glyph address, the decimal digits and the register block (spec/30_encoding.md R94; 41, 43, 44, 45). -/

namespace Sys2Proof.Machine

/-- `zext_16(nnn)` (30_encoding.md R94). -/
def addrWord (nnn : Addr12) : Word := nnn.setWidth 16

/-- `(zext_16(nnn) + zext_16(V[0])) mod 2^16`, not reduced to 12 bits (41_control_flow.md R137). -/
def indexedTarget (nnn : Addr12) (v0 : Byte) : Word := nnn.setWidth 16 + v0.setWidth 16

/-- `(I + zext_16(vx)) mod 65536` (43_index_random.md R162, DEDUCED, log entry 14). -/
def indexSum (i : Word) (vx : Byte) : Word := i + vx.setWidth 16

/-- `zext_16(vx) × 5`, the whole byte, not its low nibble (43_index_random.md R163). -/
def glyphAddress (vx : Byte) : Word := BitVec.ofNat 16 (vx.toNat * Config.glyphStride)

/-- `KeyHeld(k) = (k <= 15) and (KEYS[k] == 1)`; k is a whole byte, never masked (44_keyboard_timers.md R176, DEDUCED, log entry 10). -/
def keyHeld (keys : BitVec 16) (k : Byte) : Bool := decide (k.toNat < Config.nKeys) && keys.getLsbD k.toNat

/-- The least k in 0..15 with `KEYS[k] == 1`, or none when no key is held (44_keyboard_timers.md R173). -/
def leastKey (keys : BitVec 16) : Option Nat := (List.range Config.nKeys).find? (fun k => keys.getLsbD k)

/-- Hundreds, tens and ones of a byte, each a whole byte 0..9 (45_memory_transfer.md R180). -/
def decimalDigits (vx : Byte) : List Byte :=
  [BitVec.ofNat 8 (vx.toNat / 100), BitVec.ofNat 8 (vx.toNat / 10 % 10), BitVec.ofNat 8 (vx.toNat % 10)]

/-- `V[0], ..., V[x]` (45_memory_transfer.md R181). -/
def registerBlock (s : State) (x : RegIdx) : List Byte :=
  (List.range (x.toNat + 1)).map (fun k => s.reg (BitVec.ofNat 4 k))

end Sys2Proof.Machine
end

