-- ==== Sys2Proof/Machine/Control.lean ====
section
/-! DEFINITION. Return, jumps, call and the conditional skips (spec/41_control_flow.md R130 to R138). -/

namespace Sys2Proof.Machine

/-- RET: pops the resume address; nothing is added to it; fatal on an empty stack (R130). -/
def execRet (s : State) : Host.Outcome State Fault Refusal :=
  if s.sp.val = 0 then .next (s.raiseFatal .stackUnderflow (encode .ret) s.sp.val)
  else .next (s.pop.setPc s.top)

/-- JP nnn (R131). -/
def execJp (nnn : Addr12) (s : State) : Host.Outcome State Fault Refusal :=
  .next (s.setPc (addrWord nnn))

/-- CALL nnn: pushes the address of the instruction after it; fatal on a full stack (R132, 90_conflicts.md C2;
DEDUCED, log entry 8). -/
def execCall (nnn : Addr12) (s : State) : Host.Outcome State Fault Refusal :=
  if room : s.sp.val < Config.stackDepth then
    .next ((s.push (s.pc + BitVec.ofNat 16 Config.instrBytes) room).setPc (addrWord nnn))
  else .next (s.raiseFatal .stackOverflow (encode (.call nnn)) s.sp.val)

/-- SE Vx, kk (R133). -/
def execSeKk (x : RegIdx) (kk : Byte) (s : State) : Host.Outcome State Fault Refusal :=
  .next (s.skipIf (s.reg x == kk))

/-- SNE Vx, kk (R134). -/
def execSneKk (x : RegIdx) (kk : Byte) (s : State) : Host.Outcome State Fault Refusal :=
  .next (s.skipIf (s.reg x != kk))

/-- SE Vx, Vy (R135). -/
def execSeReg (x y : RegIdx) (s : State) : Host.Outcome State Fault Refusal :=
  .next (s.skipIf (s.reg x == s.reg y))

/-- SNE Vx, Vy (R136). -/
def execSneReg (x y : RegIdx) (s : State) : Host.Outcome State Fault Refusal :=
  .next (s.skipIf (s.reg x != s.reg y))

/-- JP V0, nnn (R137). -/
def execJpV0 (nnn : Addr12) (s : State) : Host.Outcome State Fault Refusal :=
  .next (s.setPc (indexedTarget nnn (s.reg 0)))

end Sys2Proof.Machine
end

