-- ==== Sys2Proof/Machine/Display.lean ====
section
/-! DEFINITION. CLS and DRW (spec/40_display.md R120 to R122). -/

namespace Sys2Proof.Machine

/-- CLS: all pixels 0, DIRTY set always (R120). -/
def execCls (s : State) : Host.Outcome State Fault Refusal :=
  .next (s.setDisplay Display.blank true).advance

/-- What the loop of DRW carries: the display, `collision` and `toggled` (R121). -/
structure DrawAcc where
  disp : Display
  collision : Bool
  toggled : Bool
  deriving DecidableEq, Repr

/-- One 1-bit of the sprite at pixel (px, py): a set pixel there is a collision; the pixel is toggled (R121). -/
def drawBit (px py : Nat) (acc : DrawAcc) : DrawAcc where
  disp := acc.disp.toggle px py
  collision := acc.collision || acc.disp.pixel px py
  toggled := true

/-- The 8 columns of one sprite row `b`: bit 7 is column 0 (R121; PRESUMED, log entry 9). -/
def drawRow (vx py : Nat) (b : Byte) (acc : DrawAcc) : DrawAcc :=
  (List.range Config.spriteW).foldl (fun a col => if b.getLsbD (7 - col) then drawBit (vx + col) py a else a) acc

/-- The rows of the sprite from the top, the first one at `py` (R121). -/
def drawRows : Nat → Nat → List Byte → DrawAcc → DrawAcc
  | _, _, [], acc => acc
  | vx, py, b :: bs, acc => drawRows vx (py + 1) bs (drawRow vx py b acc)

/-- DRW Vx, Vy, n: the coordinates are sampled first, the sprite's addresses are all checked before any change, VF is
the collision flag, DIRTY is set iff a pixel was toggled (R121). -/
def execDrw (x y : RegIdx) (n : Nibble) (s : State) : Host.Outcome State Fault Refusal :=
  match memReadBlock s s.i.toNat n.toNat with
  | .error a => .next (s.raiseFatal .memOutOfBounds (encode (.drw x y n)) a)
  | .ok rows =>
    let acc := drawRows (s.reg x).toNat (s.reg y).toNat rows ⟨s.disp, false, false⟩
    .next ((s.setDisplay acc.disp acc.toggled).setReg Config.flagReg (flagByte acc.collision)).advance

end Sys2Proof.Machine
end

