-- ==== Sys2Proof/Machine/Index.lean ====
section
/-! DEFINITION. The index-register instructions and RND (spec/43_index_random.md R160 to R163). -/

namespace Sys2Proof.Machine

/-- LD I, nnn: never checked against the memory bound (R160). -/
def execLdI (nnn : Addr12) (s : State) : Host.Outcome State Fault Refusal :=
  .next (s.setIndex (addrWord nnn)).advance

/-- RND Vx, kk: the step's random byte, and kk (R161; the byte is free, DESIGN CHOICE, log entry 1). -/
def execRnd (x : RegIdx) (kk : Byte) (s : State) : Host.Outcome State Fault Refusal :=
  .next (s.countDraw.setReg x (Config.randomSource s.draws &&& kk)).advance

/-- ADD I, Vx: mod 65536, no flag, no bound (R162). -/
def execAddIVx (x : RegIdx) (s : State) : Host.Outcome State Fault Refusal :=
  .next (s.setIndex (indexSum s.i (s.reg x))).advance

/-- LD F, Vx (R163). -/
def execLdFVx (x : RegIdx) (s : State) : Host.Outcome State Fault Refusal :=
  .next (s.setIndex (glyphAddress (s.reg x))).advance

end Sys2Proof.Machine
end

