-- ==== Sys2Proof/Machine/KeysTimers.lean ====
section
/-! DEFINITION. The key and timer instructions (spec/44_keyboard_timers.md R170 to R176). -/

namespace Sys2Proof.Machine

/-- SKP Vx (R170). -/
def execSkp (x : RegIdx) (s : State) : Host.Outcome State Fault Refusal :=
  .next (s.skipIf (keyHeld s.keys (s.reg x)))

/-- SKNP Vx (R171). -/
def execSknp (x : RegIdx) (s : State) : Host.Outcome State Fault Refusal :=
  .next (s.skipIf (!keyHeld s.keys (s.reg x)))

/-- LD Vx, DT (R172). -/
def execLdVxDt (x : RegIdx) (s : State) : Host.Outcome State Fault Refusal :=
  .next (s.setReg x s.dt).advance

/-- LD Vx, K: the least held key; with none held nothing changes and the next step runs the instruction again (R173). -/
def execLdVxK (x : RegIdx) (s : State) : Host.Outcome State Fault Refusal :=
  match leastKey s.keys with
  | none => .next s
  | some k => .next (s.setReg x (BitVec.ofNat 8 k)).advance

/-- LD DT, Vx (R174). -/
def execLdDtVx (x : RegIdx) (s : State) : Host.Outcome State Fault Refusal :=
  .next (s.setDelay (s.reg x)).advance

/-- LD ST, Vx (R175). -/
def execLdStVx (x : RegIdx) (s : State) : Host.Outcome State Fault Refusal :=
  .next (s.setSound (s.reg x)).advance

end Sys2Proof.Machine
end

