-- ==== Sys2Proof/Machine/Transfer.lean ====
section
/-! DEFINITION. The loads and stores (spec/45_memory_transfer.md R180 to R183). The address is I plus a small offset, a
natural number; I is never modified (DEDUCED, log entry 15); all addresses are checked before anything changes (R183). -/

namespace Sys2Proof.Machine

/-- LD B, Vx: the decimal digits of Vx to MEM[I..I+2] (R180). -/
def execLdBVx (x : RegIdx) (s : State) : Host.Outcome State Fault Refusal :=
  match memWriteBlock s s.i.toNat (decimalDigits (s.reg x)) with
  | .error a => .next (s.raiseFatal .memOutOfBounds (encode (.ldBVx x)) a)
  | .ok t => .next t.advance

/-- LD [I], Vx: V0..Vx to MEM[I..I+x] (R181). -/
def execLdMemVx (x : RegIdx) (s : State) : Host.Outcome State Fault Refusal :=
  match memWriteBlock s s.i.toNat (registerBlock s x) with
  | .error a => .next (s.raiseFatal .memOutOfBounds (encode (.ldMemVx x)) a)
  | .ok t => .next t.advance

/-- LD Vx, [I]: MEM[I..I+x] to V0..Vx (R182). -/
def execLdVxMem (x : RegIdx) (s : State) : Host.Outcome State Fault Refusal :=
  match memReadBlock s s.i.toNat (x.toNat + 1) with
  | .error a => .next (s.raiseFatal .memOutOfBounds (encode (.ldVxMem x)) a)
  | .ok bytes => .next (s.loadRegs 0 bytes).advance

end Sys2Proof.Machine
end

