-- ==== Sys2Proof/Machine/Fetch.lean ====
section
/-! DEFINITION. The fetch (spec/20_memory.md R63), the unrecognized-word handler (46_unrecognized.md R190) and the
transition Step with the handlers as a parameter (60_exceptions.md R208, R210, R211). -/

namespace Sys2Proof.Machine

/-- The instruction word: the byte at PC is the high one, the byte at PC + 1, a natural number, the low one; the high
byte is read first (R63). The error is the out-of-range address. -/
def fetch (s : State) : Except Nat Word :=
  match memRead s s.pc.toNat with
  | .error a => .error a
  | .ok hi =>
    match memRead s (s.pc.toNat + 1) with
    | .error a => .error a
    | .ok lo => .ok (joinBytes hi lo)

/-- UNRECOGNIZED: a warning with the PC and the word, then PC + 2; nothing else changes (R190). -/
def execUnrecognized (w : Word) (s : State) : Host.Outcome State Fault Refusal :=
  .next (s.warn w).advance

/-- Step (R210): not enabled while FAULT is set (R211; DEDUCED, log entry 5); fetch, decode, then the handler `run`, which owns the PC. A
fetch that fails records the word 0 (R202). -/
def stepWith (run : Instr → State → Host.Outcome State Fault Refusal) (s : State) : Host.Outcome State Fault Refusal :=
  match s.fault with
  | some r => .fault (.halted r)
  | none =>
    match fetch s with
    | .error a => .next (s.raiseFatal .memOutOfBounds 0 a)
    | .ok w =>
      match decode w with
      | .recognized i => run i s
      | .unrecognized u => execUnrecognized u s

/-- Memory with the bytes of an instruction stored from `a` upwards, where those addresses exist. -/
def placeBytes : Memory → Nat → List Byte → Memory
  | m, _, [] => m
  | m, a, b :: bs => placeBytes (if a < Config.memSize then m.write a b else m) (a + 1) bs

end Sys2Proof.Machine
end

