-- ==== Sys2Proof/Machine/Step.lean ====
section
/-! DEFINITION. The transition Step of the machine (spec/60_exceptions.md R210) and the state with an instruction placed
where the next Step fetches. -/

namespace Sys2Proof.Machine

/-- One Step: fetch, decode, run the instruction's handler (R210). -/
def step (s : State) : Host.Outcome State Fault Refusal := stepWith exec s

/-- `s` with the table word `w` of `nbits` bits stored at PC and PC + 1, high byte first (R63). Stands for the host's
HostLoad (DESIGN CHOICE, log entry 17). -/
def State.withFetchWord (s : State) (nbits w : Nat) : State :=
  s.setMem (placeBytes s.mem s.pc.toNat (tableBytes nbits w))

end Sys2Proof.Machine
end

