-- ==== Sys2Proof/WellFormed.lean ====
section
/-! DEFINITION. Which instructions and which program images are well formed. The fields of `Instr` have exactly the
widths of spec/30_encoding.md R92 and every value of every field is legal (R21, R94, R101), so an instruction has
nothing left to check; a program image must fit between 0x200 and the end of memory (70_reset_and_hazards.md R233). -/

namespace Sys2Proof

/-- Every instruction with fields of the stated widths is well formed: "every value is a legal index" (R94), "for every
instruction and every value of its fields" (R101). One arm per constructor, so that a new one is looked at. -/
def Instr.wf : Instr → Bool
  | .cls => true
  | .ret => true
  | .jp _ => true
  | .call _ => true
  | .seKk _ _ => true
  | .sneKk _ _ => true
  | .seReg _ _ => true
  | .ldKk _ _ => true
  | .addKk _ _ => true
  | .ldReg _ _ => true
  | .orReg _ _ => true
  | .andReg _ _ => true
  | .xorReg _ _ => true
  | .addReg _ _ => true
  | .sub _ _ => true
  | .shr _ _ => true
  | .subn _ _ => true
  | .shl _ _ => true
  | .sneReg _ _ => true
  | .ldI _ => true
  | .jpV0 _ => true
  | .rnd _ _ => true
  | .drw _ _ _ => true
  | .skp _ => true
  | .sknp _ => true
  | .ldVxDt _ => true
  | .ldVxK _ => true
  | .ldDtVx _ => true
  | .ldStVx _ => true
  | .addIVx _ => true
  | .ldFVx _ => true
  | .ldBVx _ => true
  | .ldMemVx _ => true
  | .ldVxMem _ => true

/-- An image of L bytes loads iff L is at most 4096 - 512 = 3584 (R233). -/
def imageWellFormed (image : List Byte) : Bool :=
  decide (Config.progBase + image.length ≤ Config.memSize)

end Sys2Proof
end

