-- ==== Sys2Proof/Machine/HostEvents.lean ====
section
/-! DEFINITION. The six events of the machine (spec/10_state.md R41): Reset, HostLoad, HostSetKeys, HostClearDirty, Tick
and Step, each atomic and each between the others (20_memory.md R69), and what the host sees (60_exceptions.md R218).
Step is Machine/Step.lean's; the order of events is the host's choice and any order may be applied. -/

namespace Sys2Proof.Machine

/-- Reset: every field takes its reset value, memory and FAULT included (70_reset_and_hazards.md R230, R231; DEDUCED, log entry 22). The free
stream of random bytes goes on where it was (DESIGN CHOICE, log entry 1). -/
def hostReset (s : State) : State := { State.reset with draws := s.draws }

/-- HostLoad: `MEM[0x200 + i] <- image[i]` (R233). -/
def hostLoad (image : List Byte) (s : State) : State :=
  s.setMem (s.mem.writeList Config.progBase image)

/-- HostSetKeys(m); no effect on a faulted core (60_exceptions.md R213, R211). -/
def hostSetKeys (m : BitVec 16) (s : State) : State :=
  match s.fault with
  | some _ => s
  | none => { s with keys := m }

/-- HostClearDirty; no effect on a faulted core (60_exceptions.md R214, R211). -/
def hostClearDirty (s : State) : State :=
  match s.fault with
  | some _ => s
  | none => { s with dirty := false }

/-- A timer decremented by one if nonzero; it stops at 0 and does not wrap (60_exceptions.md R212). -/
def countDown (t : Byte) : Byte := if t = 0 then 0 else t - 1

/-- Tick: both timers count down; no effect on a faulted core (60_exceptions.md R212, R211). -/
def tick (s : State) : State :=
  match s.fault with
  | some _ => s
  | none => { s with dt := countDown s.dt, st := countDown s.st }

/-- The events of R41. The byte `rnd` of Step is the model's free stream (DESIGN CHOICE, log entry 1). -/
inductive Event where
  | reset
  | hostLoad (image : List Byte)
  | hostSetKeys (m : BitVec 16)
  | hostClearDirty
  | tick
  | step
  deriving DecidableEq, Repr

/-- The core with the one thing about the past that the host's rules need: whether a Step has been requested since the
last Reset (R233, 20_memory.md R74; DEDUCED, log entry 16). It is no state of the core (10_state.md R20). -/
structure Session where
  core : State
  started : Bool
  deriving DecidableEq, Repr

/-- The machine as created (10_state.md R38). -/
def Session.initial : Session := ⟨State.reset, false⟩

/-- One event. HostLoad is refused when the image does not fit and after the first Step (R233); a Step of a faulted core
answers the fault of `step` (R211); every other event always happens. -/
def Session.apply (e : Event) (c : Session) : Host.Outcome Session Fault Refusal :=
  match e with
  | .reset => .next ⟨hostReset c.core, false⟩
  | .hostLoad image =>
    if !imageWellFormed image then .refused (.imageTooLong image.length)
    else if c.started then .refused .loadAfterFirstStep
    else .next ⟨hostLoad image c.core, false⟩
  | .hostSetKeys m => .next ⟨hostSetKeys m c.core, c.started⟩
  | .hostClearDirty => .next ⟨hostClearDirty c.core, c.started⟩
  | .tick => .next ⟨tick c.core, c.started⟩
  | .step =>
    match step c.core with
    | .next t => .next ⟨t, true⟩
    | .fault r => .fault r
    | .refused r => .refused r

/-- The `disp_rd` port: pixel (px, py) at linear index py × 64 + px (10_state.md R36, 60_exceptions.md R218). -/
def State.displayPort (s : State) (index : Nat) : Bool :=
  s.disp.pixel (index % Config.dispW) (index / Config.dispW)

/-- The `warn`, `warn_pc`, `warn_word` ports of the step that led from `s` to `t`: the warning it raised, if any (R218). -/
def warningOutput (s t : State) : Option Warning :=
  if t.warnings.length = s.warnings.length then none else t.warnings.head?

end Sys2Proof.Machine
end

