-- ==== Sys2Proof/Safety.lean ====
section
/-! DEFINITION. What claims may take as premises: the machine running, no warning so far, the invariants of reachable
states, the sessions the host can reach, and the model's own notion of a program's end. -/

namespace Sys2Proof.Machine

/-- FAULT = none, the premise 60_exceptions.md R201 advises for every claim. -/
abbrev State.running (s : State) : Prop := s.fault = none

/-- Running, and no unrecognized word has been met since reset (R206, 93_implementation_defined.md U5). -/
abbrev State.clean (s : State) : Prop := s.fault = none ∧ s.warnings = []

/-- Memory is canonical, PC and every stack entry stay where 10_state.md R26 derives them: PC at most
0xFFF + 0xFF = 0x10FE, a stacked value at most 4096. -/
structure State.Inv (s : State) : Prop where
  mem : s.mem.wf
  pc : s.pc.toNat ≤ 0x10FE
  stack : ∀ (k : Nat) (h : k < 24), s.stack[k].toNat ≤ 4096

/-- What a set FAULT says (10_state.md R34, 60_exceptions.md R202): its pc is the PC, and its cause, word and address
fit the state it left untouched. -/
structure State.FaultInv (s : State) : Prop where
  pc : ∀ r, s.fault = some r → r.pc = s.pc
  overflow : ∀ r, s.fault = some r → r.cause = .stackOverflow → s.sp.val = 24 ∧ r.addr.toNat = 24
  underflow : ∀ r, s.fault = some r → r.cause = .stackUnderflow → s.sp.val = 0 ∧ r.addr.toNat = 0 ∧ r.word = 0x00EE#16
  bounds : ∀ r, s.fault = some r → r.cause = .memOutOfBounds → 4096 ≤ r.addr.toNat ∧ r.addr.toNat ≤ 0xFFFF

/-- The sessions that some sequence of events reaches from the created machine. -/
inductive Session.Reachable : Session → Prop where
  | initial : Session.Reachable Session.initial
  | event (e : Event) {c d : Session} : Session.Reachable c → c.apply e = .next d → Session.Reachable d

/-- A core that has stopped has been stepped since Reset, so HostLoad is not enabled for it (60_exceptions.md R201, R211,
70_reset_and_hazards.md R233; DEDUCED, log entry 5). -/
abbrev Session.StoppedHasStarted (c : Session) : Prop := c.core.fault ≠ none → c.started = true

/-- `k` Steps from `s` all happen and leave FAULT clear. -/
def SafeRun (k : Nat) (s : State) : Prop := ∃ t, Host.Core.run Sys2Proof.core k s = .next t ∧ t.running

/-- The forms whose result rests on decision D11, with VF as an operand or as the destination of an instruction that
writes the flag (93_implementation_defined.md U3; DEDUCED, log entry 6). The model runs them by R151. -/
def restsOnFlagOrder : Instr → Bool
  | .addReg x y => decide (x = 0xF#4) || decide (y = 0xF#4)
  | .sub x y => decide (x = 0xF#4) || decide (y = 0xF#4)
  | .subn x y => decide (x = 0xF#4) || decide (y = 0xF#4)
  | .shr x _ => decide (x = 0xF#4)
  | .shl x _ => decide (x = 0xF#4)
  | .drw x y _ => decide (x = 0xF#4) || decide (y = 0xF#4)
  | _ => false

/-- The six instructions that write VF as a flag (10_state.md R23). -/
def writesFlag : Instr → Bool
  | .addReg _ _ => true
  | .sub _ _ => true
  | .shr _ _ => true
  | .subn _ _ => true
  | .shl _ _ => true
  | .drw _ _ _ => true
  | _ => false

/-- The x field of an instruction that has one (30_encoding.md R92, R93). -/
def xOperand : Instr → Option RegIdx
  | .seKk x _ => some x
  | .sneKk x _ => some x
  | .seReg x _ => some x
  | .ldKk x _ => some x
  | .addKk x _ => some x
  | .ldReg x _ => some x
  | .orReg x _ => some x
  | .andReg x _ => some x
  | .xorReg x _ => some x
  | .addReg x _ => some x
  | .sub x _ => some x
  | .shr x _ => some x
  | .subn x _ => some x
  | .shl x _ => some x
  | .sneReg x _ => some x
  | .rnd x _ => some x
  | .drw x _ _ => some x
  | .skp x => some x
  | .sknp x => some x
  | .ldVxDt x => some x
  | .ldVxK x => some x
  | .ldDtVx x => some x
  | .ldStVx x => some x
  | .addIVx x => some x
  | .ldFVx x => some x
  | .ldBVx x => some x
  | .ldMemVx x => some x
  | .ldVxMem x => some x
  | .cls => none
  | .ret => none
  | .jp _ => none
  | .call _ => none
  | .ldI _ => none
  | .jpV0 _ => none

/-- The model's own notion of a program's end (60_exceptions.md R221 (c), U17): the word at PC is a jump to itself. The
machine defines none (DESIGN CHOICE, log entry 21). -/
def State.atSelfJump (s : State) : Prop :=
  ∃ nnn : Addr12, fetch s = .ok (encode (.jp nnn)) ∧ addrWord nnn = s.pc

/-! Frames. -/

/-- The parts of the state beside PC, each the way a claim compares it. -/
inductive Part where
  | regs | index | stack | sp | delay | sound | keys | memory | display | dirty | fault | draws | warnings
  deriving DecidableEq, Repr

/-- The part is unchanged from `s` to `t`: every register, every byte of memory and every pixel reads as before. -/
def Part.same : Part → State → State → Prop
  | .regs, s, t => ∀ z, t.reg z = s.reg z
  | .index, s, t => t.i = s.i
  | .stack, s, t => t.stack = s.stack
  | .sp, s, t => t.sp = s.sp
  | .delay, s, t => t.dt = s.dt
  | .sound, s, t => t.st = s.st
  | .keys, s, t => t.keys = s.keys
  | .memory, s, t => ∀ a, t.mem.read a = s.mem.read a
  | .display, s, t => ∀ px py, t.disp.pixel px py = s.disp.pixel px py
  | .dirty, s, t => t.dirty = s.dirty
  | .fault, s, t => t.fault = s.fault
  | .draws, s, t => t.draws = s.draws
  | .warnings, s, t => t.warnings = s.warnings

/-- Everything but PC and the listed parts is unchanged from `s` to `t`. -/
def sameExcept (changed : List Part) (s t : State) : Prop := ∀ p : Part, p ∉ changed → p.same s t

/-! The fatal conditions and the sprite, as tables and formulas of the spec beside the handlers. -/

/-- The rows of 60_exceptions.md R202 that handlers raise: cause and address, or none when the handler is not fatal. -/
def fatalCheck (i : Instr) (s : State) : Option (Cause × Nat) :=
  match i with
  | .call _ => if s.sp.val = 24 then some (.stackOverflow, 24) else none
  | .ret => if s.sp.val = 0 then some (.stackUnderflow, 0) else none
  | .drw _ _ n => if 0 < n.toNat ∧ 4095 < s.i.toNat + (n.toNat - 1) then some (.memOutOfBounds, max s.i.toNat 4096) else none
  | .ldBVx _ => if 4095 < s.i.toNat + 2 then some (.memOutOfBounds, max s.i.toNat 4096) else none
  | .ldMemVx x => if 4095 < s.i.toNat + x.toNat then some (.memOutOfBounds, max s.i.toNat 4096) else none
  | .ldVxMem x => if 4095 < s.i.toNat + x.toNat then some (.memOutOfBounds, max s.i.toNat 4096) else none
  | _ => none

/-- Bit `col` (0 the leftmost, which is bit 7 of the byte) of row `row` of the sprite at I: `MEM[I+row][7 - col]`
(40_display.md R121, R122). -/
def spriteBit (s : State) (row col : Nat) : Bool := (s.mem.read (s.i.toNat + row)).getLsbD (7 - col)

/-- The sprite of `n` rows at I, placed at (Vx, Vy) with wrap, has a 1 at pixel (px, py): S of 40_display.md R123 (b). -/
def spriteCovers (s : State) (x y : RegIdx) (n : Nibble) (px py : Nat) : Prop :=
  ∃ row < n.toNat, ∃ col < 8, spriteBit s row col = true ∧
    px = ((s.reg x).toNat + col) % 64 ∧ py = ((s.reg y).toNat + row) % 32

/-- The collision of 40_display.md R122, stated on the display before the instruction. -/
def spriteCollides (s : State) (x y : RegIdx) (n : Nibble) : Prop :=
  ∃ row < n.toNat, ∃ col < 8, spriteBit s row col = true ∧
    s.disp.pixel (((s.reg x).toNat + col) % 64) (((s.reg y).toNat + row) % 32) = true

/-- What the step does once it has fetched the word `w`: the handler of its instruction, or the unrecognized handler
(60_exceptions.md R210). -/
def runWord (w : Word) (s : State) : Host.Outcome State Fault Refusal :=
  match decode w with
  | .recognized i => exec i s
  | .unrecognized u => execUnrecognized u s

/-- The byte at `a` after LD [I], Vx from `s`: a register inside I..I + x, the old byte outside (45_memory_transfer.md
R181). -/
def byteAfterBlockStore (s : State) (x : RegIdx) (a : Nat) : Byte :=
  if s.i.toNat ≤ a ∧ a ≤ s.i.toNat + x.toNat then s.reg (BitVec.ofNat 4 (a - s.i.toNat)) else s.mem.read a

/-- The byte at `a` after LD B, Vx from `s`: a decimal digit at I, I + 1 and I + 2, the old byte elsewhere
(45_memory_transfer.md R180). -/
def byteAfterDecimalStore (s : State) (x : RegIdx) (a : Nat) : Byte :=
  if a = s.i.toNat then BitVec.ofNat 8 ((s.reg x).toNat / 100)
  else if a = s.i.toNat + 1 then BitVec.ofNat 8 ((s.reg x).toNat / 10 % 10)
  else if a = s.i.toNat + 2 then BitVec.ofNat 8 ((s.reg x).toNat % 10)
  else s.mem.read a

/-- `n` reads of one byte each, ascending, the first failure ending them (20_memory.md R61, R62). -/
def readEach (s : State) : Nat → Nat → Except Nat (List Byte)
  | _, 0 => .ok []
  | a, n + 1 =>
    match memRead s a with
    | .error e => .error e
    | .ok b =>
      match readEach s (a + 1) n with
      | .error e => .error e
      | .ok bs => .ok (b :: bs)

/-- Writes of one byte each, ascending, the first failure ending them (20_memory.md R61, R62). -/
def writeEach : State → Nat → List Byte → Except Nat State
  | s, _, [] => .ok s
  | s, a, v :: vs =>
    match memWrite s a v with
    | .error e => .error e
    | .ok t => writeEach t (a + 1) vs

end Sys2Proof.Machine
end

