-- ==== Sys2Proof/Certificates/Slice0/Obligations.lean ====
section
/-! DEFINITION. The statements about the machine, each from the rules its docstring names. Frames are said with
`sameExcept` (Safety.lean): everything but PC and the listed parts is unchanged, memory byte by byte. -/

open Sys2Proof Sys2Proof.Machine

/-! Encoding. -/

/-- Decoding the word of a well-formed instruction gives it back, for every value of every field (30_encoding.md section
6, R101, which the spec marks derived; the opcode map rests on log entry 7). -/
def Obligations.DecodeOfEncodeIsIdentity : Prop :=
  ∀ i : Instr, i.wf = true → decode (encode i) = .recognized i

/-- A recognized word is the word of the instruction it decodes to: no bit is dropped, the ignored y field of the shifts
included (30_encoding.md sections 3 and 6, marked derived; the opcode map rests on log entry 7, the ignored y on log entry
15). -/
def Obligations.EncodeOfDecodeIsIdentity : Prop :=
  ∀ (w : Word) (i : Instr), decode w = .recognized i → encode i = w

/-- A word is a row's instruction iff its masked bits are the row's match, and unrecognized iff it matches no row
(30_encoding.md R95, R96, R97; the map is the spec's decision D7, log entry 7). -/
def Obligations.DecodeFollowsOpcodeMap : Prop :=
  ∀ w : Word,
    (∀ row ∈ opcodeMap,
      (w &&& row.mask = row.pattern ↔ ∃ i, decode w = .recognized i ∧ i.mnemonic = row.mnemonic)) ∧
    (decode w = .unrecognized w ↔ ∀ row ∈ opcodeMap, w &&& row.mask ≠ row.pattern)

/-- Words written out from the spec's encodings and vectors decode as the spec says (95_test_vectors.md parts 1 and 2; 0xA2F0
is the example of 43_index_random.md R160 and 0xF265 stands in program P2 of part 4). The patterns beside 00E0, 1nnn and
7xkk rest on the map the spec supplies from general knowledge (log entry 7, PRESUMED), the two unrecognized words on its
decisions D8 and D9 (log entry 19, DEDUCED). -/
def Obligations.SampleWordsDecode : Prop :=
  decode 0x00E0#16 = .recognized .cls ∧
  decode 0x00EE#16 = .recognized .ret ∧
  decode 0x1234#16 = .recognized (.jp 0x234#12) ∧
  decode 0x7AFF#16 = .recognized (.addKk 0xA#4 0xFF#8) ∧
  decode 0x8125#16 = .recognized (.sub 1#4 2#4) ∧
  decode 0xA2F0#16 = .recognized (.ldI 0x2F0#12) ∧
  decode 0xD5A7#16 = .recognized (.drw 5#4 0xA#4 7#4) ∧
  decode 0xE19E#16 = .recognized (.skp 1#4) ∧
  decode 0xF30A#16 = .recognized (.ldVxK 3#4) ∧
  decode 0xF265#16 = .recognized (.ldVxMem 2#4) ∧
  decode 0x0000#16 = .unrecognized 0x0000#16 ∧
  decode 0x5121#16 = .unrecognized 0x5121#16

/-! The step. -/

/-- With no fault, when the two bytes at PC, high byte first, decode to an instruction, Step is its handler
(20_memory.md R63, 60_exceptions.md R210; the order of the two reads is the spec's decision D5, log entry 4). -/
def Obligations.StepRunsDecodedInstruction : Prop :=
  ∀ (s : State) (i : Instr), s.fault = none → s.pc.toNat ≤ 4094 →
    decode (s.mem.read s.pc.toNat ++ s.mem.read (s.pc.toNat + 1)) = .recognized i → step s = exec i s

/-- The law of the helper withFetchWord, which is the model's own (log entry 17, DESIGN CHOICE) and stands for the host's
load: any word it places at PC is the word the next Step runs, an unrecognized one included, whatever stood there before,
and no other byte changes (the fetch is 20_memory.md R63). What a program's own stores do to a later fetch is said by
StoredBytesAreFetched. -/
def Obligations.StoredWordRunsNext : Prop :=
  ∀ (s : State) (w : Word), s.fault = none → s.pc.toNat ≤ 4094 →
    step (s.withFetchWord 16 w.toNat) = runWord w (s.withFetchWord 16 w.toNat) ∧
    ∀ a, a ≠ s.pc.toNat → a ≠ s.pc.toNat + 1 → (s.withFetchWord 16 w.toNat).mem.read a = s.mem.read a

/-- An unrecognized word is skipped: a warning with the PC and the word, PC + 2, nothing else (46_unrecognized.md R190,
60_exceptions.md R206; the warning log is the model's, log entry 2). -/
def Obligations.StepSkipsUnrecognizedWord : Prop :=
  ∀ (s : State) (w : Word), s.fault = none → s.pc.toNat ≤ 4094 →
    w = s.mem.read s.pc.toNat ++ s.mem.read (s.pc.toNat + 1) → (∀ i, decode w ≠ .recognized i) →
    ∃ t, step s = .next t ∧ t.pc = s.pc + 2#16 ∧ t.warnings = ⟨s.pc, w⟩ :: s.warnings ∧ sameExcept [.warnings] s t

/-- A fetch above 4094 is fatal: FAULT records the PC, the word 0 and the first address that does not exist, and nothing
else changes (60_exceptions.md R202, R210, with the spec's decisions D3 and D5, log entry 4). -/
def Obligations.FetchOutOfRangeIsFatal : Prop :=
  ∀ s : State, s.fault = none → 4094 < s.pc.toNat →
    ∃ t r, step s = .next t ∧ t.fault = some r ∧ r.cause = .memOutOfBounds ∧ r.pc = s.pc ∧ r.word = 0#16 ∧
      r.addr.toNat = (if 4095 < s.pc.toNat then s.pc.toNat else 4096) ∧ t.pc = s.pc ∧ sameExcept [.fault] s t

/-- While FAULT is set no Step is enabled, Tick, HostSetKeys and HostClearDirty change nothing, HostLoad is refused, and
Reset clears FAULT (60_exceptions.md R211, the spec's decisions D3 and D27, log entries 4 and 5). R211 does not name
HostLoad: it is refused by decision D24 (log entry 16) because a stopped core has been stepped since Reset, which every
reachable session meets (FaultedSessionHasStarted). -/
def Obligations.FaultedCoreMovesOnlyByReset : Prop :=
  ∀ (c : Session) (r : FaultRecord), c.core.fault = some r →
    step c.core = .fault (.halted r) ∧ c.apply .step = .fault (.halted r) ∧
    c.apply .tick = .next c ∧ (∀ m, c.apply (.hostSetKeys m) = .next c) ∧ c.apply .hostClearDirty = .next c ∧
    (c.StoppedHasStarted → ∀ image : List Byte, c.apply (.hostLoad image) =
      .refused (if 3584 < image.length then .imageTooLong image.length else .loadAfterFirstStep)) ∧
    ∃ d, c.apply .reset = .next d ∧ d.core.fault = none

/-- A Step of a core with no fault always answers a next state: no instruction and no word stops the machine otherwise
(60_exceptions.md R200, R210, R203 derived). The spec's fatal outcome (00_scope.md R8) counts as a next state here, one
with FAULT set: that is the model's reading of decision D3 (log entry 4, DEDUCED). -/
def Obligations.RunningStepAlwaysCompletes : Prop :=
  ∀ s : State, s.fault = none → ∃ t, step s = .next t

/-- Exactly the conditions of the cause table are fatal, and a fatal handler writes FAULT alone, with the PC, the
instruction's word and the table's address; DRW with n = 0 is never fatal
(60_exceptions.md section 1, the spec's decisions D3, D4, D5 and D29, log entries 4 and 14;
the words themselves rest on log entry 7). -/
def Obligations.HandlersAreFatalExactlyByTable : Prop :=
  ∀ (i : Instr) (s t : State), exec i s = .next t →
    match fatalCheck i s with
    | some (c, a) => t.fault = some ⟨c, s.pc, encode i, BitVec.ofNat 17 a⟩ ∧ t.pc = s.pc ∧ sameExcept [.fault] s t
    | none => t.fault = s.fault

/-! Invariants. -/

/-- The state after reset meets both invariants (10_state.md R38). -/
def Obligations.ResetMeetsInvariants : Prop :=
  State.reset.Inv ∧ State.reset.FaultInv

/-- Every Step keeps memory canonical, PC at most 0x10FE and every stack entry at most 4096, so that no addition to PC
wraps (10_state.md R26, marked derived; canonical memory is the model's, log entry 13). -/
def Obligations.StepKeepsInvariant : Prop :=
  ∀ s t : State, s.Inv → step s = .next t → t.Inv

/-- Every event, host events included, keeps the same invariant (10_state.md R41, R26 derived). -/
def Obligations.EventsKeepInvariant : Prop :=
  ∀ (e : Event) (c d : Session), c.core.Inv → c.apply e = .next d → d.core.Inv

/-- Every event keeps what a set FAULT says true: its pc is the PC, SP is 24 or 0 for the stack causes, the address of a
memory cause lies in 4096..0xFFFF (10_state.md R34, 60_exceptions.md R202, R211, decisions D3, D4, D5). -/
def Obligations.EventsKeepFaultRecordTrue : Prop :=
  ∀ (e : Event) (c d : Session), c.core.FaultInv → c.apply e = .next d → d.core.FaultInv

/-- Every session that any sequence of events reaches meets both invariants, and the next addition of 2 or 4 to PC in an
executed handler does not wrap (10_state.md R26, derived). -/
def Obligations.ReachableSessionsNeverWrapPc : Prop :=
  ∀ c : Session, c.Reachable → c.core.Inv ∧ c.core.FaultInv ∧
    (c.core.pc + 2#16).toNat = c.core.pc.toNat + 2 ∧ (c.core.pc + 4#16).toNat = c.core.pc.toNat + 4

/-! Whole-machine rules: who writes what. -/

/-- Only CALL writes a stack entry, only CALL and RET move SP, a popped entry keeps its value (10_state.md R28, R29,
decisions D17 and D18, log entries 3 and 15). -/
def Obligations.OnlyCallAndReturnTouchStack : Prop :=
  ∀ (i : Instr) (s t : State), exec i s = .next t →
    ((∀ nnn, i ≠ .call nnn) → t.stack = s.stack) ∧
    ((∀ nnn, i ≠ .call nnn) → i ≠ .ret → t.sp = s.sp)

/-- I is written by LD I (to nnn), ADD I (to the sum mod 2^16) and LD F (to Vx × 5) and by nothing else; a value above
4095 may be held and is fatal to use as an address (10_state.md R27). The wrap of the sum is the spec's decision D14 (log
entry 14); that the fatal use is a next state whose FAULT records the address I is its decisions D3 and D5 (log entry 4);
that DRW with n = 0 uses no address is D29 (log entry 14). -/
def Obligations.OnlyIndexInstructionsWriteI : Prop :=
  (∀ (nnn : Addr12) (s : State), ∃ t, exec (.ldI nnn) s = .next t ∧ t.i.toNat = nnn.toNat) ∧
  (∀ (x : RegIdx) (s : State), ∃ t, exec (.addIVx x) s = .next t ∧ t.i.toNat = (s.i.toNat + (s.reg x).toNat) % 65536) ∧
  (∀ (x : RegIdx) (s : State), ∃ t, exec (.ldFVx x) s = .next t ∧ t.i.toNat = (s.reg x).toNat * 5) ∧
  (∀ (i : Instr) (s t : State), exec i s = .next t → (∀ nnn, i ≠ .ldI nnn) → (∀ x, i ≠ .addIVx x) →
    (∀ x, i ≠ .ldFVx x) → t.i = s.i) ∧
  (∀ (x y : RegIdx) (n : Nibble) (s : State) (i : Instr), 4095 < s.i.toNat →
    (i = .drw x y n ∧ n ≠ 0#4 ∨ i = .ldBVx x ∨ i = .ldMemVx x ∨ i = .ldVxMem x) →
    ∃ t r, exec i s = .next t ∧ t.fault = some r ∧ r.cause = .memOutOfBounds ∧ r.addr.toNat = s.i.toNat)

/-- The executor writes DT only by LD DT and ST only by LD ST, and no instruction writes the key latch (10_state.md
sections 5; R30, R31). -/
def Obligations.TimersAndKeysWrittenOnlyByTheirInstructions : Prop :=
  ∀ (i : Instr) (s t : State), exec i s = .next t →
    ((∀ x, i ≠ .ldDtVx x) → t.dt = s.dt) ∧ ((∀ x, i ≠ .ldStVx x) → t.st = s.st) ∧ t.keys = s.keys

/-- No instruction reads the sound timer: two runs of any instruction that differ only in ST end in states that differ
only in ST (10_state.md section 5, R30). -/
def Obligations.NoInstructionReadsSoundTimer : Prop :=
  ∀ (i : Instr) (s t : State) (b : Byte), exec i s = .next t →
    ∃ u, exec i (s.setSound b) = .next u ∧ u.setSound 0 = t.setSound 0 ∧
      ((∀ x, i ≠ .ldStVx x) → u.st = b)

/-- No instruction clears DIRTY, none but CLS and DRW writes a pixel or DIRTY, and a step that changes a pixel leaves
DIRTY set (10_state.md R37, 40_display.md R124 derived). -/
def Obligations.DisplayChangesMarkDirty : Prop :=
  ∀ (i : Instr) (s t : State), exec i s = .next t →
    (s.dirty = true → t.dirty = true) ∧
    (∀ px py, t.disp.pixel px py ≠ s.disp.pixel px py → t.dirty = true) ∧
    (i ≠ .cls → (∀ x y n, i ≠ .drw x y n) → t.disp = s.disp ∧ t.dirty = s.dirty)

/-- VF is written by no instruction but the six of the flag table unless its x field is 0xF or it loads register 15, and
the six write 0 or 1 to it when x is not 0xF; DRW always (10_state.md sections 2 and 3, R22, R23). -/
def Obligations.OnlyFlagInstructionsWriteFlag : Prop :=
  ∀ (i : Instr) (s t : State), exec i s = .next t →
    (writesFlag i = false → xOperand i ≠ some 0xF#4 → t.reg 0xF#4 = s.reg 0xF#4) ∧
    (writesFlag i = true → fatalCheck i s = none → (xOperand i = some 0xF#4 → ∃ x y n, i = .drw x y n) →
      t.reg 0xF#4 = 0#8 ∨ t.reg 0xF#4 = 1#8)

/-- Every handler that is not fatal writes PC by its class: + 2, + 4 for a taken skip, nnn, nnn + V0, the popped entry,
or holds it; the unrecognized handler adds 2; no event but Step and Reset writes it (10_state.md R25; a key
index above 15 is not held by the spec's decision D16, log entry 10). -/
def Obligations.PcUpdateFollowsClass : Prop :=
  (∀ (i : Instr) (s t : State), exec i s = .next t → fatalCheck i s = none →
    t.pc =
      match i with
      | .jp nnn => BitVec.ofNat 16 nnn.toNat
      | .call nnn => BitVec.ofNat 16 nnn.toNat
      | .jpV0 nnn => BitVec.ofNat 16 (nnn.toNat + (s.reg 0#4).toNat)
      | .ret => s.top
      | .seKk x kk => if s.reg x = kk then s.pc + 4#16 else s.pc + 2#16
      | .sneKk x kk => if s.reg x ≠ kk then s.pc + 4#16 else s.pc + 2#16
      | .seReg x y => if s.reg x = s.reg y then s.pc + 4#16 else s.pc + 2#16
      | .sneReg x y => if s.reg x ≠ s.reg y then s.pc + 4#16 else s.pc + 2#16
      | .skp x => if keyHeld s.keys (s.reg x) = true then s.pc + 4#16 else s.pc + 2#16
      | .sknp x => if keyHeld s.keys (s.reg x) = false then s.pc + 4#16 else s.pc + 2#16
      | .ldVxK _ => if s.keys = 0#16 then s.pc else s.pc + 2#16
      | _ => s.pc + 2#16) ∧
  (∀ (w : Word) (s : State), ∃ t, execUnrecognized w s = .next t ∧ t.pc = s.pc + 2#16) ∧
  (∀ (e : Event) (c d : Session), c.apply e = .next d → e ≠ .step → e ≠ .reset → d.core.pc = c.core.pc)

/-- No instruction but LD B and LD [I] changes a byte of memory, and once a Step has been requested since Reset no host
event but Reset does (20_memory.md section 8, R74, decision D24, log entry 16). -/
def Obligations.OnlyBlockStoresWriteMemory : Prop :=
  (∀ (i : Instr) (s t : State), exec i s = .next t → (∀ x, i ≠ .ldBVx x) → (∀ x, i ≠ .ldMemVx x) →
    ∀ a, t.mem.read a = s.mem.read a) ∧
  (∀ (e : Event) (c d : Session), c.started = true → c.apply e = .next d → e ≠ .step → e ≠ .reset →
    ∀ a, d.core.mem.read a = c.core.mem.read a)

/-! Display. -/

/-- CLS, the word 00E0, zeroes every pixel, sets DIRTY always, falls through (40_display.md R120). -/
def Obligations.ClearDisplayZeroesAllPixels : Prop :=
  decode 0x00E0#16 = .recognized .cls ∧
  ∀ s : State, ∃ t, exec .cls s = .next t ∧ (∀ px py, t.disp.pixel px py = false) ∧ t.dirty = true ∧
    t.pc = s.pc + 2#16 ∧ sameExcept [.display, .dirty] s t

/-- DRW in range: exactly the pixels the wrapped sprite covers are toggled, VF is 1 iff a covered pixel was set before,
DIRTY is set iff the sprite has a 1 bit, n = 0 draws nothing whatever I is (40_display.md R122, R123 (b), which the spec
derives; bit order and n = 0 are its decisions D12 and D29, the sampling of VF D11; log entries 6, 9 and 14). -/
def Obligations.DrawTogglesCoveredPixels : Prop :=
  ∀ (x y : RegIdx) (n : Nibble) (s : State), n.toNat = 0 ∨ s.i.toNat + n.toNat ≤ 4096 →
    ∃ t, exec (.drw x y n) s = .next t ∧
      (∀ px < 64, ∀ py < 32, t.disp.pixel px py ≠ s.disp.pixel px py ↔ spriteCovers s x y n px py) ∧
      (spriteCollides s x y n → t.reg 0xF#4 = 1#8) ∧ (¬ spriteCollides s x y n → t.reg 0xF#4 = 0#8) ∧
      (t.dirty = true ↔ s.dirty = true ∨ ∃ row < n.toNat, ∃ col < 8, spriteBit s row col = true) ∧
      (∀ z, z ≠ 0xF#4 → t.reg z = s.reg z) ∧ t.pc = s.pc + 2#16 ∧ sameExcept [.regs, .display, .dirty] s t

/-- Drawing the same sprite twice, with neither coordinate in VF, restores the display, and the second draw's VF is 1 iff
the first turned a pixel on (40_display.md R123 (a), derived). -/
def Obligations.DrawTwiceRestoresDisplay : Prop :=
  ∀ (x y : RegIdx) (n : Nibble) (s t : State), x ≠ 0xF#4 → y ≠ 0xF#4 →
    (n.toNat = 0 ∨ s.i.toNat + n.toNat ≤ 4096) → exec (.drw x y n) s = .next t →
    ∃ u, exec (.drw x y n) t = .next u ∧ u.disp = s.disp ∧
      (u.reg 0xF#4 = 1#8 ↔ ∃ px < 64, ∃ py < 32, s.disp.pixel px py = false ∧ t.disp.pixel px py = true)

/-! Control transfer. -/

/-- RET pops: SP - 1, PC is the popped entry with nothing added; on an empty stack it is fatal with SP and PC unchanged
(41_control_flow.md R130; the FAULT record is decision D3, log entry 4; the word 00EE in it rests on log entry 7). -/
def Obligations.ReturnPopsResumeAddress : Prop :=
  (∀ (s : State) (k : Nat) (h : k < 24), s.sp.val = k + 1 →
    ∃ t, exec .ret s = .next t ∧ t.sp.val = k ∧ t.pc = s.stack[k] ∧ sameExcept [.sp] s t) ∧
  (∀ s : State, s.sp.val = 0 →
    ∃ t, exec .ret s = .next t ∧ t.fault = some ⟨.stackUnderflow, s.pc, 0x00EE#16, 0#17⟩ ∧ t.pc = s.pc ∧
      sameExcept [.fault] s t)

/-- JP, word 1nnn, goes to nnn, zero-extended; JP V0, word Bnnn, to nnn + V0, not reduced to 12 bits (41_control_flow.md
R131, R137). The word Bnnn rests on the map of log entry 7 (PRESUMED, decision D7), and nnn + V0 is the spec's plain
reading of the operation's name (R137). -/
def Obligations.JumpsGoToTarget : Prop :=
  (∀ nnn : Addr12, decode (0x1#4 ++ nnn) = .recognized (.jp nnn) ∧ decode (0xB#4 ++ nnn) = .recognized (.jpV0 nnn)) ∧
  (∀ (nnn : Addr12) (s : State), ∃ t, exec (.jp nnn) s = .next t ∧ t.pc.toNat = nnn.toNat ∧ sameExcept [] s t) ∧
  (∀ (nnn : Addr12) (s : State),
    ∃ t, exec (.jpV0 nnn) s = .next t ∧ t.pc.toNat = nnn.toNat + (s.reg 0#4).toNat ∧ sameExcept [] s t)

/-- CALL pushes PC + 2 and jumps; on a full stack it is fatal with STACK, SP and PC unchanged (41_control_flow.md R132,
decision D10 and 90_conflicts.md C2; the FAULT record is decision D3, log entries 4 and 8; the word 2nnn in it
rests on log entry 7). -/
def Obligations.CallPushesReturnAddress : Prop :=
  (∀ (nnn : Addr12) (s : State), s.sp.val < 24 →
    ∃ t, exec (.call nnn) s = .next t ∧
      (∀ (k : Nat) (h : k < 24), t.stack[k] = if k = s.sp.val then s.pc + 2#16 else s.stack[k]) ∧
      t.sp.val = s.sp.val + 1 ∧ t.pc.toNat = nnn.toNat ∧ sameExcept [.stack, .sp] s t) ∧
  (∀ (nnn : Addr12) (s : State), s.sp.val = 24 →
    ∃ t, exec (.call nnn) s = .next t ∧ t.fault = some ⟨.stackOverflow, s.pc, 0x2#4 ++ nnn, 24#17⟩ ∧ t.pc = s.pc ∧
      sameExcept [.fault] s t)

/-- After CALL at address a, a RET in any state that kept SP and the pushed entry resumes at a + 2 with the SP from
before the call (41_control_flow.md R138, derived; that a + 2 is what CALL pushes is the spec's decision D10, log entry 8,
DEDUCED). -/
def Obligations.CallThenReturnResumes : Prop :=
  ∀ (nnn : Addr12) (s t u : State), s.sp.val < 24 → exec (.call nnn) s = .next t → u.sp = t.sp →
    (∀ (k : Nat) (h : k < 24), k = s.sp.val → u.stack[k] = t.stack[k]) →
    ∃ r, exec .ret u = .next r ∧ r.pc = s.pc + 2#16 ∧ r.sp = s.sp

/-- The four register skips, words 3xkk, 4xkk, 5xy0 and 9xy0, choose PC + 4 when their condition holds and PC + 2 when not,
and write nothing else; 5xyn and 9xyn with n not 0 are unrecognized (41_control_flow.md R133, R134, R135,
R136). The words rest on the map of log entry 7 (PRESUMED, decision D7), the unrecognized ones on log entry 19 (DEDUCED,
decision D9). -/
def Obligations.SkipsChooseByComparison : Prop :=
  (∀ (x : RegIdx) (kk : Byte), decode (0x3#4 ++ x ++ kk) = .recognized (.seKk x kk) ∧
    decode (0x4#4 ++ x ++ kk) = .recognized (.sneKk x kk)) ∧
  (∀ (x y : RegIdx), decode (0x5#4 ++ x ++ y ++ 0#4) = .recognized (.seReg x y) ∧
    decode (0x9#4 ++ x ++ y ++ 0#4) = .recognized (.sneReg x y)) ∧
  (∀ (x y : RegIdx) (n : Nibble), n ≠ 0#4 →
    decode (0x5#4 ++ x ++ y ++ n) = .unrecognized (0x5#4 ++ x ++ y ++ n) ∧
    decode (0x9#4 ++ x ++ y ++ n) = .unrecognized (0x9#4 ++ x ++ y ++ n)) ∧
  (∀ (x : RegIdx) (kk : Byte) (s : State), ∃ t, exec (.seKk x kk) s = .next t ∧
    (s.reg x = kk → t.pc = s.pc + 4#16) ∧ (s.reg x ≠ kk → t.pc = s.pc + 2#16) ∧ sameExcept [] s t) ∧
  (∀ (x : RegIdx) (kk : Byte) (s : State), ∃ t, exec (.sneKk x kk) s = .next t ∧
    (s.reg x ≠ kk → t.pc = s.pc + 4#16) ∧ (s.reg x = kk → t.pc = s.pc + 2#16) ∧ sameExcept [] s t) ∧
  (∀ (x y : RegIdx) (s : State), ∃ t, exec (.seReg x y) s = .next t ∧
    (s.reg x = s.reg y → t.pc = s.pc + 4#16) ∧ (s.reg x ≠ s.reg y → t.pc = s.pc + 2#16) ∧ sameExcept [] s t) ∧
  (∀ (x y : RegIdx) (s : State), ∃ t, exec (.sneReg x y) s = .next t ∧
    (s.reg x ≠ s.reg y → t.pc = s.pc + 4#16) ∧ (s.reg x = s.reg y → t.pc = s.pc + 2#16) ∧ sameExcept [] s t)

/-! Arithmetic. -/

/-- LD Vx, kk, word 6xkk, loads the byte; ADD Vx, kk, word 7xkk, adds mod 256; neither writes VF as a flag; with x = 0xF it
is written like any register (42_alu.md R140, R141). The word 6xkk rests on the map of log entry 7 (PRESUMED,
decision D7); 7xkk is the source's own. -/
def Obligations.ImmediateLoadAndAdd : Prop :=
  (∀ (x : RegIdx) (kk : Byte), decode (0x6#4 ++ x ++ kk) = .recognized (.ldKk x kk) ∧
    decode (0x7#4 ++ x ++ kk) = .recognized (.addKk x kk)) ∧
  (∀ (x : RegIdx) (kk : Byte) (s : State), ∃ t, exec (.ldKk x kk) s = .next t ∧ t.reg x = kk ∧
    (∀ z, z ≠ x → t.reg z = s.reg z) ∧ t.pc = s.pc + 2#16 ∧ sameExcept [.regs] s t) ∧
  (∀ (x : RegIdx) (kk : Byte) (s : State), ∃ t, exec (.addKk x kk) s = .next t ∧
    (t.reg x).toNat = ((s.reg x).toNat + kk.toNat) % 256 ∧
    (∀ z, z ≠ x → t.reg z = s.reg z) ∧ t.pc = s.pc + 2#16 ∧ sameExcept [.regs] s t)

/-- LD Vx, Vy copies; OR, AND and XOR are bitwise; words 8xy0 to 8xy3; none changes a register but Vx, so none writes VF as
a flag (42_alu.md R142, R143, R144, R145). Which low nibble of group 8 is which operation rests on the map of log entry 7
(PRESUMED, decision D7). -/
def Obligations.CopyAndBitwiseOps : Prop :=
  (∀ (x y : RegIdx), decode (0x8#4 ++ x ++ y ++ 0#4) = .recognized (.ldReg x y) ∧
    decode (0x8#4 ++ x ++ y ++ 1#4) = .recognized (.orReg x y) ∧
    decode (0x8#4 ++ x ++ y ++ 2#4) = .recognized (.andReg x y) ∧
    decode (0x8#4 ++ x ++ y ++ 3#4) = .recognized (.xorReg x y)) ∧
  (∀ (x y : RegIdx) (s : State), ∃ t, exec (.ldReg x y) s = .next t ∧ t.reg x = s.reg y ∧
    (∀ z, z ≠ x → t.reg z = s.reg z) ∧ t.pc = s.pc + 2#16 ∧ sameExcept [.regs] s t) ∧
  (∀ (x y : RegIdx) (s : State), ∃ t, exec (.orReg x y) s = .next t ∧
    (∀ b, (t.reg x).getLsbD b = ((s.reg x).getLsbD b || (s.reg y).getLsbD b)) ∧
    (∀ z, z ≠ x → t.reg z = s.reg z) ∧ t.pc = s.pc + 2#16 ∧ sameExcept [.regs] s t) ∧
  (∀ (x y : RegIdx) (s : State), ∃ t, exec (.andReg x y) s = .next t ∧
    (∀ b, (t.reg x).getLsbD b = ((s.reg x).getLsbD b && (s.reg y).getLsbD b)) ∧
    (∀ z, z ≠ x → t.reg z = s.reg z) ∧ t.pc = s.pc + 2#16 ∧ sameExcept [.regs] s t) ∧
  (∀ (x y : RegIdx) (s : State), ∃ t, exec (.xorReg x y) s = .next t ∧
    (∀ b, (t.reg x).getLsbD b = ((s.reg x).getLsbD b ^^ (s.reg y).getLsbD b)) ∧
    (∀ z, z ≠ x → t.reg z = s.reg z) ∧ t.pc = s.pc + 2#16 ∧ sameExcept [.regs] s t)

/-- ADD Vx, Vy: Vx is the sum mod 256, VF the carry; with x = 0xF the sum remains, with y = 0xF the old VF is the operand
(42_alu.md section 3, R146, and the spec's decision D11 of R151, log entry 6). -/
def Obligations.AddRegistersSetsCarry : Prop :=
  ∀ (x y : RegIdx) (s : State), ∃ t, exec (.addReg x y) s = .next t ∧
    (t.reg x).toNat = ((s.reg x).toNat + (s.reg y).toNat) % 256 ∧
    (x ≠ 0xF#4 → t.reg 0xF#4 = if 255 < (s.reg x).toNat + (s.reg y).toNat then 1#8 else 0#8) ∧
    (∀ z, z ≠ x → z ≠ 0xF#4 → t.reg z = s.reg z) ∧ t.pc = s.pc + 2#16 ∧ sameExcept [.regs] s t

/-- SUB and SUBN: the difference mod 256 in Vx, VF 1 iff there is no borrow; with x = 0xF the difference remains
(42_alu.md section 3, R147, R149, and the spec's decision D11 of R151, log entry 6). -/
def Obligations.SubtractSetsNotBorrow : Prop :=
  (∀ (x y : RegIdx) (s : State), ∃ t, exec (.sub x y) s = .next t ∧
    (t.reg x).toNat = ((s.reg x).toNat + 256 - (s.reg y).toNat) % 256 ∧
    (x ≠ 0xF#4 → t.reg 0xF#4 = if (s.reg y).toNat ≤ (s.reg x).toNat then 1#8 else 0#8) ∧
    (∀ z, z ≠ x → z ≠ 0xF#4 → t.reg z = s.reg z) ∧ t.pc = s.pc + 2#16 ∧ sameExcept [.regs] s t) ∧
  (∀ (x y : RegIdx) (s : State), ∃ t, exec (.subn x y) s = .next t ∧
    (t.reg x).toNat = ((s.reg y).toNat + 256 - (s.reg x).toNat) % 256 ∧
    (x ≠ 0xF#4 → t.reg 0xF#4 = if (s.reg x).toNat ≤ (s.reg y).toNat then 1#8 else 0#8) ∧
    (∀ z, z ≠ x → z ≠ 0xF#4 → t.reg z = s.reg z) ∧ t.pc = s.pc + 2#16 ∧ sameExcept [.regs] s t)

/-- SHR and SHL shift Vx by one, VF is the evicted bit, the y field has no effect; with x = 0xF the shifted value remains
(42_alu.md section 3, R148, R150, decisions D17 and D11, log entries 6 and 15). -/
def Obligations.ShiftsSetEvictedBit : Prop :=
  (∀ (x y : RegIdx) (s : State), ∃ t, exec (.shr x y) s = .next t ∧ (∀ y', exec (.shr x y') s = .next t) ∧
    (t.reg x).toNat = (s.reg x).toNat / 2 ∧
    (x ≠ 0xF#4 → (t.reg 0xF#4).toNat = (s.reg x).toNat % 2) ∧
    (∀ z, z ≠ x → z ≠ 0xF#4 → t.reg z = s.reg z) ∧ t.pc = s.pc + 2#16 ∧ sameExcept [.regs] s t) ∧
  (∀ (x y : RegIdx) (s : State), ∃ t, exec (.shl x y) s = .next t ∧ (∀ y', exec (.shl x y') s = .next t) ∧
    (t.reg x).toNat = (s.reg x).toNat * 2 % 256 ∧
    (x ≠ 0xF#4 → (t.reg 0xF#4).toNat = (s.reg x).toNat / 128) ∧
    (∀ z, z ≠ x → z ≠ 0xF#4 → t.reg z = s.reg z) ∧ t.pc = s.pc + 2#16 ∧ sameExcept [.regs] s t)

/-! Index register and random. -/

/-- LD I, word Annn, sets I to nnn zero-extended; LD F, word Fx29, to Vx × 5, the whole byte, no wrap; neither touches
anything else (43_index_random.md R160, R163). The words rest on the map of log entry 7 (PRESUMED, decision D7). -/
def Obligations.SetIndexAndGlyphAddress : Prop :=
  (∀ nnn : Addr12, decode (0xA#4 ++ nnn) = .recognized (.ldI nnn)) ∧
  (∀ x : RegIdx, decode (0xF#4 ++ x ++ 0x29#8) = .recognized (.ldFVx x)) ∧
  (∀ (nnn : Addr12) (s : State), ∃ t, exec (.ldI nnn) s = .next t ∧ t.i.toNat = nnn.toNat ∧ t.pc = s.pc + 2#16 ∧
    sameExcept [.index] s t) ∧
  (∀ (x : RegIdx) (s : State), ∃ t, exec (.ldFVx x) s = .next t ∧ t.i.toNat = (s.reg x).toNat * 5 ∧
    t.pc = s.pc + 2#16 ∧ sameExcept [.index] s t)

/-- ADD I, Vx adds mod 65536 and writes no flag (43_index_random.md R162; the wrap is the spec's decision D14, log entry
14). -/
def Obligations.AddIndexWrapsWithoutFlag : Prop :=
  ∀ (x : RegIdx) (s : State), ∃ t, exec (.addIVx x) s = .next t ∧
    t.i.toNat = (s.i.toNat + (s.reg x).toNat) % 65536 ∧ t.pc = s.pc + 2#16 ∧ sameExcept [.index] s t

/-- RND loads the step's random byte, and kk, into Vx: bits where kk has a 0 are 0 whatever the byte (43_index_random.md
R161; the byte is the model's free stream, log entry 1, and no value of it is used). -/
def Obligations.RandomByteIsMasked : Prop :=
  ∀ (x : RegIdx) (kk : Byte) (s : State), ∃ t, exec (.rnd x kk) s = .next t ∧
    (∀ b, (t.reg x).getLsbD b = ((Config.randomSource s.draws).getLsbD b && kk.getLsbD b)) ∧
    t.reg x &&& ~~~kk = 0#8 ∧ t.draws = s.draws + 1 ∧
    (∀ z, z ≠ x → t.reg z = s.reg z) ∧ t.pc = s.pc + 2#16 ∧ sameExcept [.regs, .draws] s t

/-! Keys and timers. -/

/-- SKP skips iff the key numbered Vx is held, SKNP iff not; a number above 15 is no key and never held (44_keyboard_timers.md
R170, R171, R176; the last is the spec's decision D16, log entry 10). -/
def Obligations.KeySkipsTestHeldKey : Prop :=
  (∀ (x : RegIdx) (s : State), ∃ t, exec (.skp x) s = .next t ∧
    t.pc = (if (s.reg x).toNat ≤ 15 ∧ s.keys.getLsbD (s.reg x).toNat = true then s.pc + 4#16 else s.pc + 2#16) ∧
    sameExcept [] s t) ∧
  (∀ (x : RegIdx) (s : State), ∃ t, exec (.sknp x) s = .next t ∧
    t.pc = (if (s.reg x).toNat ≤ 15 ∧ s.keys.getLsbD (s.reg x).toNat = true then s.pc + 2#16 else s.pc + 4#16) ∧
    sameExcept [] s t)

/-- LD Vx, K loads the least held key and falls through; with no key held it changes nothing, PC included
(44_keyboard_timers.md R173). -/
def Obligations.KeyWaitTakesLeastKeyOrHolds : Prop :=
  (∀ (x : RegIdx) (s : State) (k : Nat), k < 16 → s.keys.getLsbD k = true → (∀ j < k, s.keys.getLsbD j = false) →
    ∃ t, exec (.ldVxK x) s = .next t ∧ (t.reg x).toNat = k ∧ (∀ z, z ≠ x → t.reg z = s.reg z) ∧
      t.pc = s.pc + 2#16 ∧ sameExcept [.regs] s t) ∧
  (∀ (x : RegIdx) (s : State), s.keys = 0#16 → exec (.ldVxK x) s = .next s)

/-- LD Vx, DT, LD DT, Vx and LD ST, Vx, words Fx07, Fx15 and Fx18, copy directly (44_keyboard_timers.md R172, R174,
R175). The words rest on the map of log entry 7 (PRESUMED, decision D7). -/
def Obligations.TimerMovesCopy : Prop :=
  (∀ x : RegIdx, decode (0xF#4 ++ x ++ 0x07#8) = .recognized (.ldVxDt x) ∧
    decode (0xF#4 ++ x ++ 0x15#8) = .recognized (.ldDtVx x) ∧ decode (0xF#4 ++ x ++ 0x18#8) = .recognized (.ldStVx x)) ∧
  (∀ (x : RegIdx) (s : State), ∃ t, exec (.ldVxDt x) s = .next t ∧ t.reg x = s.dt ∧
    (∀ z, z ≠ x → t.reg z = s.reg z) ∧ t.pc = s.pc + 2#16 ∧ sameExcept [.regs] s t) ∧
  (∀ (x : RegIdx) (s : State), ∃ t, exec (.ldDtVx x) s = .next t ∧ t.dt = s.reg x ∧ t.pc = s.pc + 2#16 ∧
    sameExcept [.delay] s t) ∧
  (∀ (x : RegIdx) (s : State), ∃ t, exec (.ldStVx x) s = .next t ∧ t.st = s.reg x ∧ t.pc = s.pc + 2#16 ∧
    sameExcept [.sound] s t)

/-! Memory transfers. -/

/-- LD B stores hundreds, tens and ones at I, I + 1, I + 2 and leaves every other byte alone; when I + 2 exceeds 4095 it is
fatal and stores nothing (45_memory_transfer.md R180, R183, decisions D3 and D5, log entry 4; the word Fx33 in
FAULT rests on log entry 7). -/
def Obligations.StoreDecimalDigits : Prop :=
  (∀ (x : RegIdx) (s : State), s.i.toNat + 2 ≤ 4095 →
    ∃ t, exec (.ldBVx x) s = .next t ∧
      (t.mem.read s.i.toNat).toNat = (s.reg x).toNat / 100 ∧
      (t.mem.read (s.i.toNat + 1)).toNat = (s.reg x).toNat / 10 % 10 ∧
      (t.mem.read (s.i.toNat + 2)).toNat = (s.reg x).toNat % 10 ∧
      (∀ a, a < s.i.toNat ∨ s.i.toNat + 2 < a → t.mem.read a = s.mem.read a) ∧
      t.pc = s.pc + 2#16 ∧ sameExcept [.memory] s t) ∧
  (∀ (x : RegIdx) (s : State), 4095 < s.i.toNat + 2 →
    ∃ t, exec (.ldBVx x) s = .next t ∧
      t.fault = some ⟨.memOutOfBounds, s.pc, 0xF#4 ++ x ++ 0x33#8, BitVec.ofNat 17 (max s.i.toNat 4096)⟩ ∧
      t.pc = s.pc ∧ sameExcept [.fault] s t)

/-- LD [I], Vx stores V0..Vx at I..I + x and leaves every other byte and I alone; when I + x exceeds 4095 it is fatal and
stores nothing (45_memory_transfer.md R181, R183, decisions D3, D5 and D17, log entries 4 and 15; the word in FAULT rests
on log entry 7). -/
def Obligations.StoreRegisterBlock : Prop :=
  (∀ (x : RegIdx) (s : State), s.i.toNat + x.toNat ≤ 4095 →
    ∃ t, exec (.ldMemVx x) s = .next t ∧
      (∀ z : RegIdx, z.toNat ≤ x.toNat → t.mem.read (s.i.toNat + z.toNat) = s.reg z) ∧
      (∀ a, a < s.i.toNat ∨ s.i.toNat + x.toNat < a → t.mem.read a = s.mem.read a) ∧
      t.pc = s.pc + 2#16 ∧ sameExcept [.memory] s t) ∧
  (∀ (x : RegIdx) (s : State), 4095 < s.i.toNat + x.toNat →
    ∃ t, exec (.ldMemVx x) s = .next t ∧
      t.fault = some ⟨.memOutOfBounds, s.pc, 0xF#4 ++ x ++ 0x55#8, BitVec.ofNat 17 (max s.i.toNat 4096)⟩ ∧
      t.pc = s.pc ∧ sameExcept [.fault] s t)

/-- LD Vx, [I] loads V0..Vx from I..I + x and leaves the registers above x, memory and I alone; when I + x exceeds 4095 it
is fatal and loads nothing (45_memory_transfer.md R182, R183, decisions D3, D5 and D17, log entries 4 and 15; the word in FAULT rests
on log entry 7). -/
def Obligations.LoadRegisterBlock : Prop :=
  (∀ (x : RegIdx) (s : State), s.i.toNat + x.toNat ≤ 4095 →
    ∃ t, exec (.ldVxMem x) s = .next t ∧
      (∀ z : RegIdx, z.toNat ≤ x.toNat → t.reg z = s.mem.read (s.i.toNat + z.toNat)) ∧
      (∀ z : RegIdx, x.toNat < z.toNat → t.reg z = s.reg z) ∧
      t.pc = s.pc + 2#16 ∧ sameExcept [.regs] s t) ∧
  (∀ (x : RegIdx) (s : State), 4095 < s.i.toNat + x.toNat →
    ∃ t, exec (.ldVxMem x) s = .next t ∧
      t.fault = some ⟨.memOutOfBounds, s.pc, 0xF#4 ++ x ++ 0x65#8, BitVec.ofNat 17 (max s.i.toNat 4096)⟩ ∧
      t.pc = s.pc ∧ sameExcept [.fault] s t)

/-- A block store and a later block load with the same I and the same x give V0..Vx back, whatever the registers became in
between (95_test_vectors.md section 2.6, derived). -/
def Obligations.StoreThenLoadRestoresRegisters : Prop :=
  ∀ (x : RegIdx) (s t u : State), s.i.toNat + x.toNat ≤ 4095 → exec (.ldMemVx x) s = .next t → u.i = s.i →
    (∀ a, u.mem.read a = t.mem.read a) →
    ∃ r, exec (.ldVxMem x) u = .next r ∧ ∀ z : RegIdx, z.toNat ≤ x.toNat → r.reg z = s.reg z

/-! Memory. -/

/-- The two memory primitives: fatal above 4095 with the address itself, a read of the last byte written below, no other
byte touched by a write (20_memory.md R61). -/
def Obligations.MemoryPrimitivesCheckBounds : Prop :=
  ∀ (s : State) (a : Nat) (v : Byte),
    (4095 < a → memRead s a = .error a ∧ memWrite s a v = .error a) ∧
    (a ≤ 4095 → memRead s a = .ok (s.mem.read a) ∧
      ∃ t, memWrite s a v = .ok t ∧ sameExcept [.memory] s t ∧ t.pc = s.pc ∧
        ∀ b, memRead t b = if b = a then .ok v else memRead s b)

/-- The block operations, which check the whole range first, answer what the one-byte primitives answer one after another,
the lowest failing address included (45_memory_transfer.md section 1, R183 with decisions D3 and D5). -/
def Obligations.BlockAccessIsByteByByte : Prop :=
  (∀ (s : State) (a n : Nat), memReadBlock s a n = readEach s a n) ∧
  (∀ (s : State) (a : Nat) (vs : List Byte), memWriteBlock s a vs = writeEach s a vs)

/-- Two memories in canonical form that read the same at every address are the same list (the model's representation, log
entry 13). -/
def Obligations.CanonicalMemoriesWithSameBytesAreEqual : Prop :=
  ∀ m m' : Memory, m.wf → m'.wf → (∀ a, m.read a = m'.read a) → m = m'

/-! Host events. -/

/-- Tick takes one from each timer that is not 0 and changes nothing else (60_exceptions.md section 6, R212; when ticks
come is open, decision D20, log entry 11). -/
def Obligations.TickCountsBothTimersDown : Prop :=
  ∀ s : State, s.fault = none →
    (tick s).dt.toNat = s.dt.toNat - 1 ∧ (tick s).st.toNat = s.st.toNat - 1 ∧ (tick s).pc = s.pc ∧
      sameExcept [.delay, .sound] s (tick s)

/-- HostSetKeys replaces the key latch and HostClearDirty clears DIRTY, and each changes nothing else (60_exceptions.md
section 7, R213, R214, decision D25, log entry 11). -/
def Obligations.HostWritesKeysAndClearsDirty : Prop :=
  ∀ (s : State) (m : BitVec 16), s.fault = none →
    ((hostSetKeys m s).keys = m ∧ (hostSetKeys m s).pc = s.pc ∧ sameExcept [.keys] s (hostSetKeys m s)) ∧
    ((hostClearDirty s).dirty = false ∧ (hostClearDirty s).pc = s.pc ∧ sameExcept [.dirty] s (hostClearDirty s))

/-- HostLoad before the first Step copies an image of at most 3584 bytes to 0x200 upwards and changes nothing else; a longer
image, or one after the first Step, is refused (70_reset_and_hazards.md section 2, R233, decision D24, log entry 16). -/
def Obligations.HostLoadCopiesImageVerbatim : Prop :=
  (∀ (c : Session) (image : List Byte), c.started = false → image.length ≤ 3584 →
    ∃ d, c.apply (.hostLoad image) = .next d ∧ d.started = false ∧
      (∀ (k : Nat) (h : k < image.length), d.core.mem.read (0x200 + k) = image[k]) ∧
      (∀ a, a < 0x200 ∨ 0x200 + image.length ≤ a → d.core.mem.read a = c.core.mem.read a) ∧
      d.core.pc = c.core.pc ∧ sameExcept [.memory] c.core d.core) ∧
  (∀ (c : Session) (image : List Byte), 3584 < image.length →
    c.apply (.hostLoad image) = .refused (.imageTooLong image.length)) ∧
  (∀ (c : Session) (image : List Byte), c.started = true → image.length ≤ 3584 →
    c.apply (.hostLoad image) = .refused .loadAfterFirstStep)

/-- The created machine: all fields zeroed except PC = 0x200 and DIRTY = 1, no fault (10_state.md R38). -/
def Obligations.ResetStateIsZeroedExceptPcAndDirty : Prop :=
  (∀ z, State.reset.reg z = 0#8) ∧ State.reset.i = 0#16 ∧ State.reset.pc = 0x200#16 ∧
  (∀ (k : Nat) (h : k < 24), State.reset.stack[k] = 0#16) ∧ State.reset.sp.val = 0 ∧ State.reset.dt = 0#8 ∧
  State.reset.st = 0#8 ∧ State.reset.keys = 0#16 ∧ (∀ a, State.reset.mem.read a = 0#8) ∧
  (∀ px py, State.reset.disp.pixel px py = false) ∧ State.reset.dirty = true ∧ State.reset.fault = none

/-- Reset at any moment gives every field of the spec's state its reset value, memory and FAULT included, and reopens
HostLoad (70_reset_and_hazards.md sections 1 and 2, R230, R231, decision D23; the draw counter runs on, log entry 1). -/
def Obligations.ResetAppliesFromAnyState : Prop :=
  ∀ c : Session, ∃ d, c.apply .reset = .next d ∧ d.started = false ∧ d.core.pc = State.reset.pc ∧
    d.core.draws = c.core.draws ∧ sameExcept [.draws] State.reset d.core

/-! Rules over several instructions and events. -/

/-- A core that has stopped has been stepped since the last Reset: so at creation, kept by every event, so in every
reachable session (60_exceptions.md R201, R211, 70_reset_and_hazards.md R233, decisions D3 and D24; log entries 4, 5 and 16;
the bit started is the model's). -/
def Obligations.FaultedSessionHasStarted : Prop :=
  Session.initial.StoppedHasStarted ∧
  (∀ (e : Event) (c d : Session), c.StoppedHasStarted → c.apply e = .next d → d.StoppedHasStarted) ∧
  (∀ c : Session, c.Reachable → c.StoppedHasStarted)

/-- A byte that LD [I] or LD B has written is the byte a later Step fetches: in any later state `u` that still holds at its
PC and PC + 1 the bytes the store left there, the Step runs the word of those bytes, with the stored registers or digits
inside the stored range and the old bytes outside it, so an instruction overwritten in half is fetched in half
(20_memory.md R72, which the spec derives; 45_memory_transfer.md R180, R181). -/
def Obligations.StoredBytesAreFetched : Prop :=
  (∀ (x : RegIdx) (s t u : State), s.i.toNat + x.toNat ≤ 4095 → exec (.ldMemVx x) s = .next t →
    u.fault = none → u.pc.toNat ≤ 4094 → u.mem.read u.pc.toNat = t.mem.read u.pc.toNat →
    u.mem.read (u.pc.toNat + 1) = t.mem.read (u.pc.toNat + 1) →
    step u = runWord (byteAfterBlockStore s x u.pc.toNat ++ byteAfterBlockStore s x (u.pc.toNat + 1)) u) ∧
  (∀ (x : RegIdx) (s t u : State), s.i.toNat + 2 ≤ 4095 → exec (.ldBVx x) s = .next t →
    u.fault = none → u.pc.toNat ≤ 4094 → u.mem.read u.pc.toNat = t.mem.read u.pc.toNat →
    u.mem.read (u.pc.toNat + 1) = t.mem.read (u.pc.toNat + 1) →
    step u = runWord (byteAfterDecimalStore s x u.pc.toNat ++ byteAfterDecimalStore s x (u.pc.toNat + 1)) u)

/-- DIRTY: CLS sets it always, DRW sets it if and only if it toggled at least one pixel, no other instruction writes it, no
instruction clears it and none reads it (two runs that differ only in DIRTY end in states that differ only in DIRTY);
HostClearDirty clears it, Reset sets it, no other host event writes it (10_state.md R37). -/
def Obligations.DirtyIsSetByDrawingAndClearedByHost : Prop :=
  (∀ s t : State, exec .cls s = .next t → t.dirty = true) ∧
  (∀ (x y : RegIdx) (n : Nibble) (s t : State), exec (.drw x y n) s = .next t →
    (t.dirty = true ↔ s.dirty = true ∨ ∃ px < 64, ∃ py < 32, t.disp.pixel px py ≠ s.disp.pixel px py)) ∧
  (∀ (i : Instr) (s t : State), exec i s = .next t → i ≠ .cls → (∀ x y n, i ≠ .drw x y n) → t.dirty = s.dirty) ∧
  (∀ (w : Word) (s t : State), execUnrecognized w s = .next t → t.dirty = s.dirty) ∧
  (∀ (i : Instr) (s t : State) (b : Bool), exec i s = .next t →
    ∃ u, exec i { s with dirty := b } = .next u ∧ { u with dirty := true } = { t with dirty := true }) ∧
  (∀ s : State, s.fault = none → (hostClearDirty s).dirty = false) ∧
  (∀ s : State, (hostReset s).dirty = true) ∧
  (∀ (e : Event) (c d : Session), c.apply e = .next d → e ≠ .step → e ≠ .reset → e ≠ .hostClearDirty →
    d.core.dirty = c.core.dirty)

/-- From the bytes in memory to the effect, for the two instructions with operands whose patterns are the source's own
(30_encoding.md R102): a Step over the bytes 1nnn goes to nnn, and changes nothing at all when nnn is its own address; a
Step over the bytes 7xkk adds kk to Vx mod 256, discards the carry and falls through (41_control_flow.md R131,
42_alu.md R141). -/
def Obligations.JumpAndAddByteRunFromMemory : Prop :=
  (∀ (nnn : Addr12) (s : State), s.fault = none → s.pc.toNat ≤ 4094 →
    s.mem.read s.pc.toNat = 0x1#4 ++ nnn.extractLsb' 8 4 → s.mem.read (s.pc.toNat + 1) = nnn.extractLsb' 0 8 →
    ∃ t, step s = .next t ∧ t.pc.toNat = nnn.toNat ∧ sameExcept [] s t ∧ (nnn.toNat = s.pc.toNat → t = s)) ∧
  (∀ (x : RegIdx) (kk : Byte) (s : State), s.fault = none → s.pc.toNat ≤ 4094 →
    s.mem.read s.pc.toNat = 0x7#4 ++ x → s.mem.read (s.pc.toNat + 1) = kk →
    ∃ t, step s = .next t ∧ (t.reg x).toNat = ((s.reg x).toNat + kk.toNat) % 256 ∧
      (∀ z, z ≠ x → t.reg z = s.reg z) ∧ t.pc = s.pc + 2#16 ∧ sameExcept [.regs] s t)
end

