-- ==== Sys2Proof/Laws/Config.lean ====
section
/-! SUPPORT. The numbers behind the named sizes, for simp and omega. -/

namespace Sys2Proof

@[simp] theorem Config.memSize_eq : Config.memSize = 4096 := rfl
@[simp] theorem Config.progBase_eq : Config.progBase = 512 := rfl
@[simp] theorem Config.stackDepth_eq : Config.stackDepth = 24 := rfl
@[simp] theorem Config.flagReg_eq : Config.flagReg = 0xF#4 := rfl
@[simp] theorem Config.dispW_eq : Config.dispW = 64 := rfl
@[simp] theorem Config.dispH_eq : Config.dispH = 32 := rfl
@[simp] theorem Config.spriteW_eq : Config.spriteW = 8 := rfl
@[simp] theorem Config.nKeys_eq : Config.nKeys = 16 := rfl
@[simp] theorem Config.glyphStride_eq : Config.glyphStride = 5 := rfl
@[simp] theorem Config.instrBytes_eq : Config.instrBytes = 2 := rfl

end Sys2Proof
end

