-- ==== Sys2Proof/Laws/Decode.lean ====
section
/-! SUPPORT. The fields of a word in each format, the two bytes of a word, and the word an unrecognized classification
carries. -/

namespace Sys2Proof

theorem toNat_joinBytes (hi lo : Byte) : (joinBytes hi lo).toNat = hi.toNat * 256 + lo.toNat :=
  (BitVec.toNat_append hi lo).trans (by
    rw [← Nat.shiftLeft_add_eq_or_of_lt lo.isLt, Nat.shiftLeft_eq])

theorem toNat_formatA (op : BitVec 4) (nnn : Addr12) : (formatA op nnn).toNat = op.toNat * 4096 + nnn.toNat :=
  (BitVec.toNat_append op nnn).trans (by
    rw [← Nat.shiftLeft_add_eq_or_of_lt nnn.isLt, Nat.shiftLeft_eq])

theorem toNat_formatK (op : BitVec 4) (x : RegIdx) (low : Byte) :
    (formatK op x low).toNat = op.toNat * 4096 + x.toNat * 256 + low.toNat :=
  (BitVec.toNat_append (op ++ x) low).trans (by
    rw [← Nat.shiftLeft_add_eq_or_of_lt low.isLt, Nat.shiftLeft_eq, BitVec.toNat_append,
      ← Nat.shiftLeft_add_eq_or_of_lt x.isLt, Nat.shiftLeft_eq]
    omega)

theorem toNat_formatR (op : BitVec 4) (x y : RegIdx) (low : Nibble) :
    (formatR op x y low).toNat = op.toNat * 4096 + x.toNat * 256 + y.toNat * 16 + low.toNat :=
  (BitVec.toNat_append (op ++ x ++ y) low).trans (by
    rw [← Nat.shiftLeft_add_eq_or_of_lt low.isLt, Nat.shiftLeft_eq, BitVec.toNat_append,
      ← Nat.shiftLeft_add_eq_or_of_lt y.isLt, Nat.shiftLeft_eq, BitVec.toNat_append,
      ← Nat.shiftLeft_add_eq_or_of_lt x.isLt, Nat.shiftLeft_eq]
    omega)

theorem toNat_opField (w : Word) : (opField w).toNat = w.toNat / 4096 % 16 := by
  simp [opField, BitVec.extractLsb'_toNat, Nat.shiftRight_eq_div_pow]
theorem toNat_xField (w : Word) : (xField w).toNat = w.toNat / 256 % 16 := by
  simp [xField, BitVec.extractLsb'_toNat, Nat.shiftRight_eq_div_pow]
theorem toNat_yField (w : Word) : (yField w).toNat = w.toNat / 16 % 16 := by
  simp [yField, BitVec.extractLsb'_toNat, Nat.shiftRight_eq_div_pow]
theorem toNat_nField (w : Word) : (nField w).toNat = w.toNat % 16 := by
  simp [nField, BitVec.extractLsb'_toNat]
theorem toNat_kkField (w : Word) : (kkField w).toNat = w.toNat % 256 := by
  simp [kkField, BitVec.extractLsb'_toNat]
theorem toNat_nnnField (w : Word) : (nnnField w).toNat = w.toNat % 4096 := by
  simp [nnnField, BitVec.extractLsb'_toNat]

/-! The fields of each format. -/

@[simp] theorem opField_formatA (op : BitVec 4) (nnn : Addr12) : opField (formatA op nnn) = op := by
  apply BitVec.eq_of_toNat_eq
  have := nnn.isLt; have := op.isLt
  rw [toNat_opField, toNat_formatA]; omega
@[simp] theorem nnnField_formatA (op : BitVec 4) (nnn : Addr12) : nnnField (formatA op nnn) = nnn := by
  apply BitVec.eq_of_toNat_eq
  have := nnn.isLt; have := op.isLt
  rw [toNat_nnnField, toNat_formatA]; omega
@[simp] theorem opField_formatK (op : BitVec 4) (x : RegIdx) (low : Byte) : opField (formatK op x low) = op := by
  apply BitVec.eq_of_toNat_eq
  have := op.isLt; have := x.isLt; have := low.isLt
  rw [toNat_opField, toNat_formatK]; omega
@[simp] theorem xField_formatK (op : BitVec 4) (x : RegIdx) (low : Byte) : xField (formatK op x low) = x := by
  apply BitVec.eq_of_toNat_eq
  have := op.isLt; have := x.isLt; have := low.isLt
  rw [toNat_xField, toNat_formatK]; omega
@[simp] theorem kkField_formatK (op : BitVec 4) (x : RegIdx) (low : Byte) : kkField (formatK op x low) = low := by
  apply BitVec.eq_of_toNat_eq
  have := op.isLt; have := x.isLt; have := low.isLt
  rw [toNat_kkField, toNat_formatK]; omega
@[simp] theorem opField_formatR (op : BitVec 4) (x y : RegIdx) (low : Nibble) : opField (formatR op x y low) = op := by
  apply BitVec.eq_of_toNat_eq
  have := op.isLt; have := x.isLt; have := y.isLt; have := low.isLt
  rw [toNat_opField, toNat_formatR]; omega
@[simp] theorem xField_formatR (op : BitVec 4) (x y : RegIdx) (low : Nibble) : xField (formatR op x y low) = x := by
  apply BitVec.eq_of_toNat_eq
  have := op.isLt; have := x.isLt; have := y.isLt; have := low.isLt
  rw [toNat_xField, toNat_formatR]; omega
@[simp] theorem yField_formatR (op : BitVec 4) (x y : RegIdx) (low : Nibble) : yField (formatR op x y low) = y := by
  apply BitVec.eq_of_toNat_eq
  have := op.isLt; have := x.isLt; have := y.isLt; have := low.isLt
  rw [toNat_yField, toNat_formatR]; omega
@[simp] theorem nField_formatR (op : BitVec 4) (x y : RegIdx) (low : Nibble) : nField (formatR op x y low) = low := by
  apply BitVec.eq_of_toNat_eq
  have := op.isLt; have := x.isLt; have := y.isLt; have := low.isLt
  rw [toNat_nField, toNat_formatR]; omega

/-! A word is its fields, in each format. -/

theorem formatA_fields (w : Word) : formatA (opField w) (nnnField w) = w := by
  apply BitVec.eq_of_toNat_eq
  have := w.isLt
  rw [toNat_formatA, toNat_opField, toNat_nnnField]; omega
theorem formatK_fields (w : Word) : formatK (opField w) (xField w) (kkField w) = w := by
  apply BitVec.eq_of_toNat_eq
  have := w.isLt
  rw [toNat_formatK, toNat_opField, toNat_xField, toNat_kkField]; omega
theorem formatR_fields (w : Word) : formatR (opField w) (xField w) (yField w) (nField w) = w := by
  apply BitVec.eq_of_toNat_eq
  have := w.isLt
  rw [toNat_formatR, toNat_opField, toNat_xField, toNat_yField, toNat_nField]; omega
theorem joinBytes_wordBytes (w : Word) : joinBytes (w.extractLsb' 8 8) (w.extractLsb' 0 8) = w := by
  apply BitVec.eq_of_toNat_eq
  have := w.isLt
  rw [toNat_joinBytes]
  simp [BitVec.extractLsb'_toNat, Nat.shiftRight_eq_div_pow]
  omega

/-- The word in an unrecognized classification is the word decoded. -/
theorem decode_unrecognized {w u : Word} (h : decode w = .unrecognized u) : u = w := by
  simp only [decode, decodeGroup0, decodeGroup8, decodeGroupE, decodeGroupF] at h
  repeat' split at h
  all_goals first | (cases h; done) | (injection h with h; exact h.symm)

end Sys2Proof
end

