-- ==== Sys2Proof/Laws/Memory.lean ====
section
/-! SUPPORT. The laws of memory: a read after a write, the frame of a write, the canonical form, and what the checked
primitives and the block operations answer. -/

namespace Sys2Proof.Machine

@[simp] theorem Memory.read_nil (a : Nat) : Memory.read [] a = 0 := rfl

theorem Memory.read_cons (b : Nat) (w : Byte) (m : Memory) (a : Nat) :
    Memory.read ((b, w) :: m) a = if a = b then w else Memory.read m a := rfl

theorem Memory.read_insert (m : Memory) (a : Nat) (v : Byte) (z : Nat) :
    Memory.read (Memory.insert m a v) z = if z = a then v else Memory.read m z := by
  induction m with
  | nil => simp [Memory.insert, Memory.read_cons]
  | cons c m ih =>
    obtain ⟨b, w⟩ := c
    simp only [Memory.insert]
    split
    · simp [Memory.read_cons]
    · split
      · subst_vars
        by_cases h : z = b <;> simp [Memory.read_cons, h]
      · rename_i hab
        by_cases h : z = b
        · subst h
          simp [Memory.read_cons, Ne.symm hab]
        · simp [Memory.read_cons, h, ih]

theorem Memory.read_erase (m : Memory) (a z : Nat) :
    Memory.read (m.filter (fun c => c.1 ≠ a)) z = if z = a then 0 else Memory.read m z := by
  induction m with
  | nil => simp
  | cons c m ih =>
    obtain ⟨b, w⟩ := c
    by_cases hb : b = a
    · subst hb
      rw [List.filter_cons_of_neg (by simp), ih]
      by_cases h : z = b <;> simp [Memory.read_cons, h]
    · rw [List.filter_cons_of_pos (by simpa using hb), Memory.read_cons, ih, Memory.read_cons]
      by_cases h : z = b
      · subst h
        simp [hb]
      · simp [h]

/-- A write sets the byte it addresses and leaves every other byte alone. -/
theorem Memory.read_write (m : Memory) (a : Nat) (v : Byte) (z : Nat) :
    Memory.read (Memory.write m a v) z = if z = a then v else Memory.read m z := by
  unfold Memory.write
  split
  · subst_vars
    exact Memory.read_erase m a z
  · exact Memory.read_insert m a v z

/-- Writing a list sets the bytes it covers, in order, and leaves every other byte alone. -/
theorem Memory.read_writeList (m : Memory) (a : Nat) (vs : List Byte) (z : Nat) :
    Memory.read (Memory.writeList m a vs) z =
      if h : a ≤ z ∧ z < a + vs.length then vs[z - a]'(by omega) else Memory.read m z := by
  induction vs generalizing m a with
  | nil =>
    simp only [Memory.writeList]
    rw [dif_neg]
    simp
  | cons v vs ih =>
    simp only [Memory.writeList, ih, Memory.read_write]
    by_cases hz : z = a
    · subst hz
      simp
    · by_cases h : a + 1 ≤ z ∧ z < a + 1 + vs.length
      · have hp : z - a = (z - (a + 1)) + 1 := by omega
        have h' : a ≤ z ∧ z < a + (v :: vs).length := by simp; omega
        simp only [h, h', and_self, ↓reduceDIte, hp, List.getElem_cons_succ]
      · have h' : ¬ (a ≤ z ∧ z < a + (v :: vs).length) := by simp; omega
        rw [dif_neg h, dif_neg h', if_neg hz]

/-- Byte `k` of a written list, read back. -/
theorem Memory.read_writeList_at (m : Memory) (a : Nat) (vs : List Byte) (k : Nat) (h : k < vs.length) :
    Memory.read (Memory.writeList m a vs) (a + k) = vs[k] := by
  rw [Memory.read_writeList, dif_pos ⟨Nat.le_add_right a k, by omega⟩]
  congr 1
  omega

/-- A byte outside a written list. -/
theorem Memory.read_writeList_outside (m : Memory) (a : Nat) (vs : List Byte) (z : Nat)
    (h : z < a ∨ a + vs.length ≤ z) : Memory.read (Memory.writeList m a vs) z = Memory.read m z := by
  rw [Memory.read_writeList, dif_neg (by omega)]

/-! The canonical form. -/

theorem Memory.mem_insert {m : Memory} {a : Nat} {v : Byte} {p : Host.Cell} (h : p ∈ Memory.insert m a v) :
    p = (a, v) ∨ p ∈ m := by
  induction m with
  | nil => simpa [Memory.insert] using h
  | cons c m ih =>
    obtain ⟨b, w⟩ := c
    simp only [Memory.insert] at h
    split at h
    · simpa using h
    · split at h
      · rcases List.mem_cons.mp h with h | h
        · exact .inl h
        · exact .inr (List.mem_cons_of_mem _ h)
      · rcases List.mem_cons.mp h with h | h
        · exact .inr (h ▸ List.mem_cons_self ..)
        · exact (ih h).imp id (List.mem_cons_of_mem _)

theorem Memory.wf_insert {m : Memory} (hm : m.wf) {a : Nat} (ha : a < 4096) {v : Byte} (hv : v ≠ 0) :
    (Memory.insert m a v).wf := by
  refine ⟨?_, fun p hp => ?_⟩
  · obtain ⟨hs, -⟩ := hm
    induction m with
    | nil => simp [Memory.insert]
    | cons c m ih =>
      obtain ⟨b, w⟩ := c
      obtain ⟨hb, hs⟩ := List.pairwise_cons.mp hs
      simp only [Memory.insert]
      split
      · rename_i hab
        refine List.pairwise_cons.mpr ⟨fun p hp => ?_, List.pairwise_cons.mpr ⟨hb, hs⟩⟩
        rcases List.mem_cons.mp hp with rfl | hp
        · exact hab
        · exact Nat.lt_trans hab (hb p hp)
      · split
        · subst_vars
          exact List.pairwise_cons.mpr ⟨hb, hs⟩
        · refine List.pairwise_cons.mpr ⟨fun p hp => ?_, ih hs⟩
          rcases Memory.mem_insert hp with rfl | hp
          · simp only; omega
          · exact hb p hp
  · rcases Memory.mem_insert hp with rfl | hp
    · exact ⟨ha, hv⟩
    · exact hm.2 p hp

theorem Memory.wf_write {m : Memory} (hm : m.wf) {a : Nat} (ha : a < 4096) (v : Byte) : (Memory.write m a v).wf := by
  unfold Memory.write
  split
  · exact ⟨hm.1.filter _, fun p hp => hm.2 p (List.mem_filter.mp hp).1⟩
  · exact Memory.wf_insert hm ha (by assumption)

theorem Memory.wf_writeList {m : Memory} (hm : m.wf) {a : Nat} {vs : List Byte} (h : a + vs.length ≤ 4096) :
    (Memory.writeList m a vs).wf := by
  induction vs generalizing m a with
  | nil => exact hm
  | cons v vs ih =>
    simp only [List.length_cons] at h
    exact ih (Memory.wf_write hm (by omega) v) (by omega)

theorem wf_placeBytes {m : Memory} (hm : m.wf) (a : Nat) (bs : List Byte) : (placeBytes m a bs).wf := by
  induction bs generalizing m a with
  | nil => exact hm
  | cons b bs ih =>
    simp only [placeBytes]
    split
    · exact ih (Memory.wf_write hm (by assumption) b) _
    · exact ih hm _

theorem reset_mem_wf : State.reset.mem.wf := by decide

/-! The checked primitives. -/

theorem memRead_ok {s : State} {a : Nat} (h : a < 4096) : memRead s a = .ok (s.mem.read a) := by
  simp [memRead, Nat.not_le.mpr h]

theorem memRead_error {s : State} {a : Nat} (h : 4096 ≤ a) : memRead s a = .error a := by
  simp [memRead, h]

theorem memWrite_ok {s : State} {a : Nat} {v : Byte} (h : a < 4096) :
    memWrite s a v = .ok (s.setMem (s.mem.write a v)) := by
  simp [memWrite, Nat.not_le.mpr h]

theorem memWrite_error {s : State} {a : Nat} {v : Byte} (h : 4096 ≤ a) : memWrite s a v = .error a := by
  simp [memWrite, h]

theorem blockFault_none {base n : Nat} (h : n = 0 ∨ base + n ≤ 4096) : blockFault base n = none := by
  unfold blockFault
  rw [if_neg]
  simp only [Config.memSize]
  omega

theorem blockFault_some {base n : Nat} (hn : n ≠ 0) (h : 4096 < base + n) :
    blockFault base n = some (max base 4096) := by
  unfold blockFault
  rw [if_pos]
  simp only [Config.memSize]
  omega

/-- All that `memReadBlock` can answer. -/
theorem memReadBlock_spec (s : State) (base n : Nat) :
    (n = 0 ∨ base + n ≤ 4096) ∧
        memReadBlock s base n = .ok ((List.range n).map (fun k => s.mem.read (base + k))) ∨
      (n ≠ 0 ∧ 4096 < base + n) ∧ memReadBlock s base n = .error (max base 4096) := by
  by_cases h : n = 0 ∨ base + n ≤ 4096
  · exact .inl ⟨h, by simp [memReadBlock, blockFault_none h]⟩
  · have h' : n ≠ 0 ∧ 4096 < base + n := by omega
    exact .inr ⟨h', by simp [memReadBlock, blockFault_some h'.1 h'.2]⟩

/-- All that `memWriteBlock` can answer. -/
theorem memWriteBlock_spec (s : State) (base : Nat) (vs : List Byte) :
    (vs.length = 0 ∨ base + vs.length ≤ 4096) ∧
        memWriteBlock s base vs = .ok (s.setMem (s.mem.writeList base vs)) ∨
      (vs.length ≠ 0 ∧ 4096 < base + vs.length) ∧ memWriteBlock s base vs = .error (max base 4096) := by
  by_cases h : vs.length = 0 ∨ base + vs.length ≤ 4096
  · exact .inl ⟨h, by simp [memWriteBlock, blockFault_none h]⟩
  · have h' : vs.length ≠ 0 ∧ 4096 < base + vs.length := by omega
    exact .inr ⟨h', by simp [memWriteBlock, blockFault_some h'.1 h'.2]⟩

/-- All that the fetch can answer: the two bytes at PC, or the first of the two addresses that does not exist. -/
theorem fetch_spec (s : State) :
    s.pc.toNat ≤ 4094 ∧ fetch s = .ok (joinBytes (s.mem.read s.pc.toNat) (s.mem.read (s.pc.toNat + 1))) ∨
      s.pc.toNat = 4095 ∧ fetch s = .error 4096 ∨
      4096 ≤ s.pc.toNat ∧ fetch s = .error s.pc.toNat := by
  by_cases h : s.pc.toNat ≤ 4094
  · exact .inl ⟨h, by rw [fetch, memRead_ok (by omega), memRead_ok (by omega)]⟩
  · by_cases h' : s.pc.toNat = 4095
    · exact .inr (.inl ⟨h', by rw [fetch, memRead_ok (by omega), h', memRead_error (by omega)]⟩)
    · exact .inr (.inr ⟨by omega, by rw [fetch, memRead_error (by omega)]⟩)

end Sys2Proof.Machine
end

