-- ==== Sys2Proof/Laws/State.lean ====
section
/-! SUPPORT. What each update of the state does to each field, true by definition, so that no later proof unfolds a
record update. -/

namespace Sys2Proof.Machine

/-! `setReg`. -/

@[simp] theorem State.setReg_v (s : State) (x : RegIdx) (b : Byte) : (s.setReg x b).v = s.v.set x.toNat b x.isLt := rfl
@[simp] theorem State.setReg_i (s : State) (x : RegIdx) (b : Byte) : (s.setReg x b).i = s.i := rfl
@[simp] theorem State.setReg_pc (s : State) (x : RegIdx) (b : Byte) : (s.setReg x b).pc = s.pc := rfl
@[simp] theorem State.setReg_stack (s : State) (x : RegIdx) (b : Byte) : (s.setReg x b).stack = s.stack := rfl
@[simp] theorem State.setReg_sp (s : State) (x : RegIdx) (b : Byte) : (s.setReg x b).sp = s.sp := rfl
@[simp] theorem State.setReg_dt (s : State) (x : RegIdx) (b : Byte) : (s.setReg x b).dt = s.dt := rfl
@[simp] theorem State.setReg_st (s : State) (x : RegIdx) (b : Byte) : (s.setReg x b).st = s.st := rfl
@[simp] theorem State.setReg_keys (s : State) (x : RegIdx) (b : Byte) : (s.setReg x b).keys = s.keys := rfl
@[simp] theorem State.setReg_mem (s : State) (x : RegIdx) (b : Byte) : (s.setReg x b).mem = s.mem := rfl
@[simp] theorem State.setReg_disp (s : State) (x : RegIdx) (b : Byte) : (s.setReg x b).disp = s.disp := rfl
@[simp] theorem State.setReg_dirty (s : State) (x : RegIdx) (b : Byte) : (s.setReg x b).dirty = s.dirty := rfl
@[simp] theorem State.setReg_fault (s : State) (x : RegIdx) (b : Byte) : (s.setReg x b).fault = s.fault := rfl
@[simp] theorem State.setReg_draws (s : State) (x : RegIdx) (b : Byte) : (s.setReg x b).draws = s.draws := rfl
@[simp] theorem State.setReg_warnings (s : State) (x : RegIdx) (b : Byte) : (s.setReg x b).warnings = s.warnings := rfl

/-! `setMem`. -/

@[simp] theorem State.setMem_v (s : State) (m : Memory) : (s.setMem m).v = s.v := rfl
@[simp] theorem State.setMem_i (s : State) (m : Memory) : (s.setMem m).i = s.i := rfl
@[simp] theorem State.setMem_pc (s : State) (m : Memory) : (s.setMem m).pc = s.pc := rfl
@[simp] theorem State.setMem_stack (s : State) (m : Memory) : (s.setMem m).stack = s.stack := rfl
@[simp] theorem State.setMem_sp (s : State) (m : Memory) : (s.setMem m).sp = s.sp := rfl
@[simp] theorem State.setMem_dt (s : State) (m : Memory) : (s.setMem m).dt = s.dt := rfl
@[simp] theorem State.setMem_st (s : State) (m : Memory) : (s.setMem m).st = s.st := rfl
@[simp] theorem State.setMem_keys (s : State) (m : Memory) : (s.setMem m).keys = s.keys := rfl
@[simp] theorem State.setMem_mem (s : State) (m : Memory) : (s.setMem m).mem = m := rfl
@[simp] theorem State.setMem_disp (s : State) (m : Memory) : (s.setMem m).disp = s.disp := rfl
@[simp] theorem State.setMem_dirty (s : State) (m : Memory) : (s.setMem m).dirty = s.dirty := rfl
@[simp] theorem State.setMem_fault (s : State) (m : Memory) : (s.setMem m).fault = s.fault := rfl
@[simp] theorem State.setMem_draws (s : State) (m : Memory) : (s.setMem m).draws = s.draws := rfl
@[simp] theorem State.setMem_warnings (s : State) (m : Memory) : (s.setMem m).warnings = s.warnings := rfl
@[simp] theorem State.setMem_reg (s : State) (m : Memory) (z : RegIdx) : (s.setMem m).reg z = s.reg z := rfl

/-! `setIndex`. -/

@[simp] theorem State.setIndex_v (s : State) (w : Word) : (s.setIndex w).v = s.v := rfl
@[simp] theorem State.setIndex_i (s : State) (w : Word) : (s.setIndex w).i = w := rfl
@[simp] theorem State.setIndex_pc (s : State) (w : Word) : (s.setIndex w).pc = s.pc := rfl
@[simp] theorem State.setIndex_stack (s : State) (w : Word) : (s.setIndex w).stack = s.stack := rfl
@[simp] theorem State.setIndex_sp (s : State) (w : Word) : (s.setIndex w).sp = s.sp := rfl
@[simp] theorem State.setIndex_dt (s : State) (w : Word) : (s.setIndex w).dt = s.dt := rfl
@[simp] theorem State.setIndex_st (s : State) (w : Word) : (s.setIndex w).st = s.st := rfl
@[simp] theorem State.setIndex_keys (s : State) (w : Word) : (s.setIndex w).keys = s.keys := rfl
@[simp] theorem State.setIndex_mem (s : State) (w : Word) : (s.setIndex w).mem = s.mem := rfl
@[simp] theorem State.setIndex_disp (s : State) (w : Word) : (s.setIndex w).disp = s.disp := rfl
@[simp] theorem State.setIndex_dirty (s : State) (w : Word) : (s.setIndex w).dirty = s.dirty := rfl
@[simp] theorem State.setIndex_fault (s : State) (w : Word) : (s.setIndex w).fault = s.fault := rfl
@[simp] theorem State.setIndex_draws (s : State) (w : Word) : (s.setIndex w).draws = s.draws := rfl
@[simp] theorem State.setIndex_warnings (s : State) (w : Word) : (s.setIndex w).warnings = s.warnings := rfl
@[simp] theorem State.setIndex_reg (s : State) (w : Word) (z : RegIdx) : (s.setIndex w).reg z = s.reg z := rfl

/-! `setDelay`. -/

@[simp] theorem State.setDelay_v (s : State) (b : Byte) : (s.setDelay b).v = s.v := rfl
@[simp] theorem State.setDelay_i (s : State) (b : Byte) : (s.setDelay b).i = s.i := rfl
@[simp] theorem State.setDelay_pc (s : State) (b : Byte) : (s.setDelay b).pc = s.pc := rfl
@[simp] theorem State.setDelay_stack (s : State) (b : Byte) : (s.setDelay b).stack = s.stack := rfl
@[simp] theorem State.setDelay_sp (s : State) (b : Byte) : (s.setDelay b).sp = s.sp := rfl
@[simp] theorem State.setDelay_dt (s : State) (b : Byte) : (s.setDelay b).dt = b := rfl
@[simp] theorem State.setDelay_st (s : State) (b : Byte) : (s.setDelay b).st = s.st := rfl
@[simp] theorem State.setDelay_keys (s : State) (b : Byte) : (s.setDelay b).keys = s.keys := rfl
@[simp] theorem State.setDelay_mem (s : State) (b : Byte) : (s.setDelay b).mem = s.mem := rfl
@[simp] theorem State.setDelay_disp (s : State) (b : Byte) : (s.setDelay b).disp = s.disp := rfl
@[simp] theorem State.setDelay_dirty (s : State) (b : Byte) : (s.setDelay b).dirty = s.dirty := rfl
@[simp] theorem State.setDelay_fault (s : State) (b : Byte) : (s.setDelay b).fault = s.fault := rfl
@[simp] theorem State.setDelay_draws (s : State) (b : Byte) : (s.setDelay b).draws = s.draws := rfl
@[simp] theorem State.setDelay_warnings (s : State) (b : Byte) : (s.setDelay b).warnings = s.warnings := rfl
@[simp] theorem State.setDelay_reg (s : State) (b : Byte) (z : RegIdx) : (s.setDelay b).reg z = s.reg z := rfl

/-! `setSound`. -/

@[simp] theorem State.setSound_v (s : State) (b : Byte) : (s.setSound b).v = s.v := rfl
@[simp] theorem State.setSound_i (s : State) (b : Byte) : (s.setSound b).i = s.i := rfl
@[simp] theorem State.setSound_pc (s : State) (b : Byte) : (s.setSound b).pc = s.pc := rfl
@[simp] theorem State.setSound_stack (s : State) (b : Byte) : (s.setSound b).stack = s.stack := rfl
@[simp] theorem State.setSound_sp (s : State) (b : Byte) : (s.setSound b).sp = s.sp := rfl
@[simp] theorem State.setSound_dt (s : State) (b : Byte) : (s.setSound b).dt = s.dt := rfl
@[simp] theorem State.setSound_st (s : State) (b : Byte) : (s.setSound b).st = b := rfl
@[simp] theorem State.setSound_keys (s : State) (b : Byte) : (s.setSound b).keys = s.keys := rfl
@[simp] theorem State.setSound_mem (s : State) (b : Byte) : (s.setSound b).mem = s.mem := rfl
@[simp] theorem State.setSound_disp (s : State) (b : Byte) : (s.setSound b).disp = s.disp := rfl
@[simp] theorem State.setSound_dirty (s : State) (b : Byte) : (s.setSound b).dirty = s.dirty := rfl
@[simp] theorem State.setSound_fault (s : State) (b : Byte) : (s.setSound b).fault = s.fault := rfl
@[simp] theorem State.setSound_draws (s : State) (b : Byte) : (s.setSound b).draws = s.draws := rfl
@[simp] theorem State.setSound_warnings (s : State) (b : Byte) : (s.setSound b).warnings = s.warnings := rfl
@[simp] theorem State.setSound_reg (s : State) (b : Byte) (z : RegIdx) : (s.setSound b).reg z = s.reg z := rfl

/-! `countDraw`. -/

@[simp] theorem State.countDraw_v (s : State) : (s.countDraw).v = s.v := rfl
@[simp] theorem State.countDraw_i (s : State) : (s.countDraw).i = s.i := rfl
@[simp] theorem State.countDraw_pc (s : State) : (s.countDraw).pc = s.pc := rfl
@[simp] theorem State.countDraw_stack (s : State) : (s.countDraw).stack = s.stack := rfl
@[simp] theorem State.countDraw_sp (s : State) : (s.countDraw).sp = s.sp := rfl
@[simp] theorem State.countDraw_dt (s : State) : (s.countDraw).dt = s.dt := rfl
@[simp] theorem State.countDraw_st (s : State) : (s.countDraw).st = s.st := rfl
@[simp] theorem State.countDraw_keys (s : State) : (s.countDraw).keys = s.keys := rfl
@[simp] theorem State.countDraw_mem (s : State) : (s.countDraw).mem = s.mem := rfl
@[simp] theorem State.countDraw_disp (s : State) : (s.countDraw).disp = s.disp := rfl
@[simp] theorem State.countDraw_dirty (s : State) : (s.countDraw).dirty = s.dirty := rfl
@[simp] theorem State.countDraw_fault (s : State) : (s.countDraw).fault = s.fault := rfl
@[simp] theorem State.countDraw_draws (s : State) : (s.countDraw).draws = s.draws + 1 := rfl
@[simp] theorem State.countDraw_warnings (s : State) : (s.countDraw).warnings = s.warnings := rfl
@[simp] theorem State.countDraw_reg (s : State) (z : RegIdx) : (s.countDraw).reg z = s.reg z := rfl

/-! `warn`. -/

@[simp] theorem State.warn_v (s : State) (w : Word) : (s.warn w).v = s.v := rfl
@[simp] theorem State.warn_i (s : State) (w : Word) : (s.warn w).i = s.i := rfl
@[simp] theorem State.warn_pc (s : State) (w : Word) : (s.warn w).pc = s.pc := rfl
@[simp] theorem State.warn_stack (s : State) (w : Word) : (s.warn w).stack = s.stack := rfl
@[simp] theorem State.warn_sp (s : State) (w : Word) : (s.warn w).sp = s.sp := rfl
@[simp] theorem State.warn_dt (s : State) (w : Word) : (s.warn w).dt = s.dt := rfl
@[simp] theorem State.warn_st (s : State) (w : Word) : (s.warn w).st = s.st := rfl
@[simp] theorem State.warn_keys (s : State) (w : Word) : (s.warn w).keys = s.keys := rfl
@[simp] theorem State.warn_mem (s : State) (w : Word) : (s.warn w).mem = s.mem := rfl
@[simp] theorem State.warn_disp (s : State) (w : Word) : (s.warn w).disp = s.disp := rfl
@[simp] theorem State.warn_dirty (s : State) (w : Word) : (s.warn w).dirty = s.dirty := rfl
@[simp] theorem State.warn_fault (s : State) (w : Word) : (s.warn w).fault = s.fault := rfl
@[simp] theorem State.warn_draws (s : State) (w : Word) : (s.warn w).draws = s.draws := rfl
@[simp] theorem State.warn_warnings (s : State) (w : Word) : (s.warn w).warnings = ⟨s.pc, w⟩ :: s.warnings := rfl
@[simp] theorem State.warn_reg (s : State) (w : Word) (z : RegIdx) : (s.warn w).reg z = s.reg z := rfl

/-! `setPc`. -/

@[simp] theorem State.setPc_v (s : State) (w : Word) : (s.setPc w).v = s.v := rfl
@[simp] theorem State.setPc_i (s : State) (w : Word) : (s.setPc w).i = s.i := rfl
@[simp] theorem State.setPc_pc (s : State) (w : Word) : (s.setPc w).pc = w := rfl
@[simp] theorem State.setPc_stack (s : State) (w : Word) : (s.setPc w).stack = s.stack := rfl
@[simp] theorem State.setPc_sp (s : State) (w : Word) : (s.setPc w).sp = s.sp := rfl
@[simp] theorem State.setPc_dt (s : State) (w : Word) : (s.setPc w).dt = s.dt := rfl
@[simp] theorem State.setPc_st (s : State) (w : Word) : (s.setPc w).st = s.st := rfl
@[simp] theorem State.setPc_keys (s : State) (w : Word) : (s.setPc w).keys = s.keys := rfl
@[simp] theorem State.setPc_mem (s : State) (w : Word) : (s.setPc w).mem = s.mem := rfl
@[simp] theorem State.setPc_disp (s : State) (w : Word) : (s.setPc w).disp = s.disp := rfl
@[simp] theorem State.setPc_dirty (s : State) (w : Word) : (s.setPc w).dirty = s.dirty := rfl
@[simp] theorem State.setPc_fault (s : State) (w : Word) : (s.setPc w).fault = s.fault := rfl
@[simp] theorem State.setPc_draws (s : State) (w : Word) : (s.setPc w).draws = s.draws := rfl
@[simp] theorem State.setPc_warnings (s : State) (w : Word) : (s.setPc w).warnings = s.warnings := rfl
@[simp] theorem State.setPc_reg (s : State) (w : Word) (z : RegIdx) : (s.setPc w).reg z = s.reg z := rfl

/-! `advance`. -/

@[simp] theorem State.advance_v (s : State) : (s.advance).v = s.v := rfl
@[simp] theorem State.advance_i (s : State) : (s.advance).i = s.i := rfl
@[simp] theorem State.advance_pc (s : State) : (s.advance).pc = s.pc + 2#16 := rfl
@[simp] theorem State.advance_stack (s : State) : (s.advance).stack = s.stack := rfl
@[simp] theorem State.advance_sp (s : State) : (s.advance).sp = s.sp := rfl
@[simp] theorem State.advance_dt (s : State) : (s.advance).dt = s.dt := rfl
@[simp] theorem State.advance_st (s : State) : (s.advance).st = s.st := rfl
@[simp] theorem State.advance_keys (s : State) : (s.advance).keys = s.keys := rfl
@[simp] theorem State.advance_mem (s : State) : (s.advance).mem = s.mem := rfl
@[simp] theorem State.advance_disp (s : State) : (s.advance).disp = s.disp := rfl
@[simp] theorem State.advance_dirty (s : State) : (s.advance).dirty = s.dirty := rfl
@[simp] theorem State.advance_fault (s : State) : (s.advance).fault = s.fault := rfl
@[simp] theorem State.advance_draws (s : State) : (s.advance).draws = s.draws := rfl
@[simp] theorem State.advance_warnings (s : State) : (s.advance).warnings = s.warnings := rfl
@[simp] theorem State.advance_reg (s : State) (z : RegIdx) : (s.advance).reg z = s.reg z := rfl

/-! `skipIf`. -/

@[simp] theorem State.skipIf_v (s : State) (c : Bool) : (s.skipIf c).v = s.v := rfl
@[simp] theorem State.skipIf_i (s : State) (c : Bool) : (s.skipIf c).i = s.i := rfl
@[simp] theorem State.skipIf_pc (s : State) (c : Bool) : (s.skipIf c).pc = (if c then s.pc + 4#16 else s.pc + 2#16) := rfl
@[simp] theorem State.skipIf_stack (s : State) (c : Bool) : (s.skipIf c).stack = s.stack := rfl
@[simp] theorem State.skipIf_sp (s : State) (c : Bool) : (s.skipIf c).sp = s.sp := rfl
@[simp] theorem State.skipIf_dt (s : State) (c : Bool) : (s.skipIf c).dt = s.dt := rfl
@[simp] theorem State.skipIf_st (s : State) (c : Bool) : (s.skipIf c).st = s.st := rfl
@[simp] theorem State.skipIf_keys (s : State) (c : Bool) : (s.skipIf c).keys = s.keys := rfl
@[simp] theorem State.skipIf_mem (s : State) (c : Bool) : (s.skipIf c).mem = s.mem := rfl
@[simp] theorem State.skipIf_disp (s : State) (c : Bool) : (s.skipIf c).disp = s.disp := rfl
@[simp] theorem State.skipIf_dirty (s : State) (c : Bool) : (s.skipIf c).dirty = s.dirty := rfl
@[simp] theorem State.skipIf_fault (s : State) (c : Bool) : (s.skipIf c).fault = s.fault := rfl
@[simp] theorem State.skipIf_draws (s : State) (c : Bool) : (s.skipIf c).draws = s.draws := rfl
@[simp] theorem State.skipIf_warnings (s : State) (c : Bool) : (s.skipIf c).warnings = s.warnings := rfl
@[simp] theorem State.skipIf_reg (s : State) (c : Bool) (z : RegIdx) : (s.skipIf c).reg z = s.reg z := rfl

/-! `push`. -/

@[simp] theorem State.push_v (s : State) (w : Word) (h : s.sp.val < 24) : (s.push w h).v = s.v := rfl
@[simp] theorem State.push_i (s : State) (w : Word) (h : s.sp.val < 24) : (s.push w h).i = s.i := rfl
@[simp] theorem State.push_pc (s : State) (w : Word) (h : s.sp.val < 24) : (s.push w h).pc = s.pc := rfl
@[simp] theorem State.push_stack (s : State) (w : Word) (h : s.sp.val < 24) : (s.push w h).stack = s.stack.set s.sp.val w h := rfl
@[simp] theorem State.push_sp (s : State) (w : Word) (h : s.sp.val < 24) : (s.push w h).sp = ⟨s.sp.val + 1, Nat.succ_lt_succ h⟩ := rfl
@[simp] theorem State.push_dt (s : State) (w : Word) (h : s.sp.val < 24) : (s.push w h).dt = s.dt := rfl
@[simp] theorem State.push_st (s : State) (w : Word) (h : s.sp.val < 24) : (s.push w h).st = s.st := rfl
@[simp] theorem State.push_keys (s : State) (w : Word) (h : s.sp.val < 24) : (s.push w h).keys = s.keys := rfl
@[simp] theorem State.push_mem (s : State) (w : Word) (h : s.sp.val < 24) : (s.push w h).mem = s.mem := rfl
@[simp] theorem State.push_disp (s : State) (w : Word) (h : s.sp.val < 24) : (s.push w h).disp = s.disp := rfl
@[simp] theorem State.push_dirty (s : State) (w : Word) (h : s.sp.val < 24) : (s.push w h).dirty = s.dirty := rfl
@[simp] theorem State.push_fault (s : State) (w : Word) (h : s.sp.val < 24) : (s.push w h).fault = s.fault := rfl
@[simp] theorem State.push_draws (s : State) (w : Word) (h : s.sp.val < 24) : (s.push w h).draws = s.draws := rfl
@[simp] theorem State.push_warnings (s : State) (w : Word) (h : s.sp.val < 24) : (s.push w h).warnings = s.warnings := rfl
@[simp] theorem State.push_reg (s : State) (w : Word) (h : s.sp.val < 24) (z : RegIdx) : (s.push w h).reg z = s.reg z := rfl

/-! `pop`. -/

@[simp] theorem State.pop_v (s : State) : (s.pop).v = s.v := rfl
@[simp] theorem State.pop_i (s : State) : (s.pop).i = s.i := rfl
@[simp] theorem State.pop_pc (s : State) : (s.pop).pc = s.pc := rfl
@[simp] theorem State.pop_stack (s : State) : (s.pop).stack = s.stack := rfl
@[simp] theorem State.pop_sp (s : State) : (s.pop).sp = ⟨s.sp.val - 1, Nat.lt_of_le_of_lt (Nat.sub_le _ _) s.sp.isLt⟩ := rfl
@[simp] theorem State.pop_dt (s : State) : (s.pop).dt = s.dt := rfl
@[simp] theorem State.pop_st (s : State) : (s.pop).st = s.st := rfl
@[simp] theorem State.pop_keys (s : State) : (s.pop).keys = s.keys := rfl
@[simp] theorem State.pop_mem (s : State) : (s.pop).mem = s.mem := rfl
@[simp] theorem State.pop_disp (s : State) : (s.pop).disp = s.disp := rfl
@[simp] theorem State.pop_dirty (s : State) : (s.pop).dirty = s.dirty := rfl
@[simp] theorem State.pop_fault (s : State) : (s.pop).fault = s.fault := rfl
@[simp] theorem State.pop_draws (s : State) : (s.pop).draws = s.draws := rfl
@[simp] theorem State.pop_warnings (s : State) : (s.pop).warnings = s.warnings := rfl
@[simp] theorem State.pop_reg (s : State) (z : RegIdx) : (s.pop).reg z = s.reg z := rfl

/-! `setDisplay`. -/

@[simp] theorem State.setDisplay_v (s : State) (d : Display) (m : Bool) : (s.setDisplay d m).v = s.v := rfl
@[simp] theorem State.setDisplay_i (s : State) (d : Display) (m : Bool) : (s.setDisplay d m).i = s.i := rfl
@[simp] theorem State.setDisplay_pc (s : State) (d : Display) (m : Bool) : (s.setDisplay d m).pc = s.pc := rfl
@[simp] theorem State.setDisplay_stack (s : State) (d : Display) (m : Bool) : (s.setDisplay d m).stack = s.stack := rfl
@[simp] theorem State.setDisplay_sp (s : State) (d : Display) (m : Bool) : (s.setDisplay d m).sp = s.sp := rfl
@[simp] theorem State.setDisplay_dt (s : State) (d : Display) (m : Bool) : (s.setDisplay d m).dt = s.dt := rfl
@[simp] theorem State.setDisplay_st (s : State) (d : Display) (m : Bool) : (s.setDisplay d m).st = s.st := rfl
@[simp] theorem State.setDisplay_keys (s : State) (d : Display) (m : Bool) : (s.setDisplay d m).keys = s.keys := rfl
@[simp] theorem State.setDisplay_mem (s : State) (d : Display) (m : Bool) : (s.setDisplay d m).mem = s.mem := rfl
@[simp] theorem State.setDisplay_disp (s : State) (d : Display) (m : Bool) : (s.setDisplay d m).disp = d := rfl
@[simp] theorem State.setDisplay_dirty (s : State) (d : Display) (m : Bool) : (s.setDisplay d m).dirty = (s.dirty || m) := rfl
@[simp] theorem State.setDisplay_fault (s : State) (d : Display) (m : Bool) : (s.setDisplay d m).fault = s.fault := rfl
@[simp] theorem State.setDisplay_draws (s : State) (d : Display) (m : Bool) : (s.setDisplay d m).draws = s.draws := rfl
@[simp] theorem State.setDisplay_warnings (s : State) (d : Display) (m : Bool) : (s.setDisplay d m).warnings = s.warnings := rfl
@[simp] theorem State.setDisplay_reg (s : State) (d : Display) (m : Bool) (z : RegIdx) : (s.setDisplay d m).reg z = s.reg z := rfl

/-! `raiseFatal`. -/

@[simp] theorem State.raiseFatal_v (s : State) (c : Cause) (w : Word) (a : Nat) : (s.raiseFatal c w a).v = s.v := rfl
@[simp] theorem State.raiseFatal_i (s : State) (c : Cause) (w : Word) (a : Nat) : (s.raiseFatal c w a).i = s.i := rfl
@[simp] theorem State.raiseFatal_pc (s : State) (c : Cause) (w : Word) (a : Nat) : (s.raiseFatal c w a).pc = s.pc := rfl
@[simp] theorem State.raiseFatal_stack (s : State) (c : Cause) (w : Word) (a : Nat) : (s.raiseFatal c w a).stack = s.stack := rfl
@[simp] theorem State.raiseFatal_sp (s : State) (c : Cause) (w : Word) (a : Nat) : (s.raiseFatal c w a).sp = s.sp := rfl
@[simp] theorem State.raiseFatal_dt (s : State) (c : Cause) (w : Word) (a : Nat) : (s.raiseFatal c w a).dt = s.dt := rfl
@[simp] theorem State.raiseFatal_st (s : State) (c : Cause) (w : Word) (a : Nat) : (s.raiseFatal c w a).st = s.st := rfl
@[simp] theorem State.raiseFatal_keys (s : State) (c : Cause) (w : Word) (a : Nat) : (s.raiseFatal c w a).keys = s.keys := rfl
@[simp] theorem State.raiseFatal_mem (s : State) (c : Cause) (w : Word) (a : Nat) : (s.raiseFatal c w a).mem = s.mem := rfl
@[simp] theorem State.raiseFatal_disp (s : State) (c : Cause) (w : Word) (a : Nat) : (s.raiseFatal c w a).disp = s.disp := rfl
@[simp] theorem State.raiseFatal_dirty (s : State) (c : Cause) (w : Word) (a : Nat) : (s.raiseFatal c w a).dirty = s.dirty := rfl
@[simp] theorem State.raiseFatal_fault (s : State) (c : Cause) (w : Word) (a : Nat) : (s.raiseFatal c w a).fault = some ⟨c, s.pc, w, BitVec.ofNat 17 a⟩ := rfl
@[simp] theorem State.raiseFatal_draws (s : State) (c : Cause) (w : Word) (a : Nat) : (s.raiseFatal c w a).draws = s.draws := rfl
@[simp] theorem State.raiseFatal_warnings (s : State) (c : Cause) (w : Word) (a : Nat) : (s.raiseFatal c w a).warnings = s.warnings := rfl
@[simp] theorem State.raiseFatal_reg (s : State) (c : Cause) (w : Word) (a : Nat) (z : RegIdx) : (s.raiseFatal c w a).reg z = s.reg z := rfl

/-! `writeFlagThenResult`. -/

@[simp] theorem State.writeFlagThenResult_v (s : State) (x : RegIdx) (f : Bool) (b : Byte) : (s.writeFlagThenResult x f b).v = (s.v.set 15 (flagByte f)).set x.toNat b x.isLt := rfl
@[simp] theorem State.writeFlagThenResult_i (s : State) (x : RegIdx) (f : Bool) (b : Byte) : (s.writeFlagThenResult x f b).i = s.i := rfl
@[simp] theorem State.writeFlagThenResult_pc (s : State) (x : RegIdx) (f : Bool) (b : Byte) : (s.writeFlagThenResult x f b).pc = s.pc := rfl
@[simp] theorem State.writeFlagThenResult_stack (s : State) (x : RegIdx) (f : Bool) (b : Byte) : (s.writeFlagThenResult x f b).stack = s.stack := rfl
@[simp] theorem State.writeFlagThenResult_sp (s : State) (x : RegIdx) (f : Bool) (b : Byte) : (s.writeFlagThenResult x f b).sp = s.sp := rfl
@[simp] theorem State.writeFlagThenResult_dt (s : State) (x : RegIdx) (f : Bool) (b : Byte) : (s.writeFlagThenResult x f b).dt = s.dt := rfl
@[simp] theorem State.writeFlagThenResult_st (s : State) (x : RegIdx) (f : Bool) (b : Byte) : (s.writeFlagThenResult x f b).st = s.st := rfl
@[simp] theorem State.writeFlagThenResult_keys (s : State) (x : RegIdx) (f : Bool) (b : Byte) : (s.writeFlagThenResult x f b).keys = s.keys := rfl
@[simp] theorem State.writeFlagThenResult_mem (s : State) (x : RegIdx) (f : Bool) (b : Byte) : (s.writeFlagThenResult x f b).mem = s.mem := rfl
@[simp] theorem State.writeFlagThenResult_disp (s : State) (x : RegIdx) (f : Bool) (b : Byte) : (s.writeFlagThenResult x f b).disp = s.disp := rfl
@[simp] theorem State.writeFlagThenResult_dirty (s : State) (x : RegIdx) (f : Bool) (b : Byte) : (s.writeFlagThenResult x f b).dirty = s.dirty := rfl
@[simp] theorem State.writeFlagThenResult_fault (s : State) (x : RegIdx) (f : Bool) (b : Byte) : (s.writeFlagThenResult x f b).fault = s.fault := rfl
@[simp] theorem State.writeFlagThenResult_draws (s : State) (x : RegIdx) (f : Bool) (b : Byte) : (s.writeFlagThenResult x f b).draws = s.draws := rfl
@[simp] theorem State.writeFlagThenResult_warnings (s : State) (x : RegIdx) (f : Bool) (b : Byte) : (s.writeFlagThenResult x f b).warnings = s.warnings := rfl

end Sys2Proof.Machine
end

