-- ==== Sys2Proof/Laws/Ops.lean ====
section
/-! SUPPORT. The laws of registers, stack, display and operands. -/

namespace Sys2Proof.Machine

/-! Registers. -/

/-- A write of a register is seen by a read of it and by no read of another. -/
theorem State.reg_setReg (s : State) (x : RegIdx) (b : Byte) (z : RegIdx) :
    (s.setReg x b).reg z = if z = x then b else s.reg z := by
  simp only [State.reg, State.setReg_v, Vector.getElem_set, BitVec.toNat_inj, eq_comm (a := x)]

@[simp] theorem State.reg_setReg_self (s : State) (x : RegIdx) (b : Byte) : (s.setReg x b).reg x = b := by
  simp [State.reg_setReg]

@[simp] theorem State.reg_setReg_ne (s : State) {x z : RegIdx} (b : Byte) (h : z ≠ x) :
    (s.setReg x b).reg z = s.reg z := by
  simp [State.reg_setReg, h]

/-- After a flag write and a result write: the result in Vx, the flag in VF unless that is Vx, the rest unchanged. -/
theorem State.reg_writeFlagThenResult (s : State) (x : RegIdx) (f : Bool) (b : Byte) (z : RegIdx) :
    (s.writeFlagThenResult x f b).reg z = if z = x then b else if z = 0xF#4 then flagByte f else s.reg z := by
  simp only [State.writeFlagThenResult, State.reg_setReg]

/-- The state after a block load: `V[k]` to `V[k + n - 1]` hold the bytes, the rest is unchanged. -/
theorem State.reg_loadRegs (s : State) (k : Nat) (bs : List Byte) (h : k + bs.length ≤ 16) (z : RegIdx) :
    (s.loadRegs k bs).reg z =
      if hz : k ≤ z.toNat ∧ z.toNat < k + bs.length then bs[z.toNat - k]'(by omega) else s.reg z := by
  induction bs generalizing s k with
  | nil =>
    simp only [State.loadRegs]
    rw [dif_neg]
    simp
  | cons b bs ih =>
    simp only [List.length_cons] at h
    have hk : (BitVec.ofNat 4 k).toNat = k := by rw [BitVec.toNat_ofNat]; omega
    have hzk : z = BitVec.ofNat 4 k ↔ z.toNat = k := by rw [← BitVec.toNat_inj, hk]
    rw [State.loadRegs, ih _ _ (by omega), State.reg_setReg]
    by_cases hz : z.toNat = k
    · have hz' := hzk.mpr hz
      have h'' : k ≤ z.toNat ∧ z.toNat < k + (b :: bs).length := by simp; omega
      rw [dif_neg (by omega), if_pos hz', dif_pos h'']
      simp [hz]
    · rw [if_neg (fun e => hz (hzk.mp e))]
      by_cases h' : k + 1 ≤ z.toNat ∧ z.toNat < k + 1 + bs.length
      · have hp : z.toNat - k = (z.toNat - (k + 1)) + 1 := by omega
        have h'' : k ≤ z.toNat ∧ z.toNat < k + (b :: bs).length := by simp; omega
        simp only [h', h'', and_self, ↓reduceDIte, hp, List.getElem_cons_succ]
      · have h'' : ¬ (k ≤ z.toNat ∧ z.toNat < k + (b :: bs).length) := by simp; omega
        rw [dif_neg h', dif_neg h'']

/-- A block load changes the registers alone. -/
theorem State.loadRegs_eq (s : State) (k : Nat) (bs : List Byte) :
    s.loadRegs k bs = { s with v := (s.loadRegs k bs).v } := by
  induction bs generalizing s k with
  | nil => rfl
  | cons b bs ih =>
    rw [State.loadRegs, ih]
    rfl

@[simp] theorem length_decimalDigits (b : Byte) : (decimalDigits b).length = 3 := rfl

@[simp] theorem length_registerBlock (s : State) (x : RegIdx) : (registerBlock s x).length = x.toNat + 1 := by
  simp [registerBlock]

theorem getElem_registerBlock (s : State) (x : RegIdx) (k : Nat) (h : k < (registerBlock s x).length) :
    (registerBlock s x)[k] = s.reg (BitVec.ofNat 4 k) := by
  simp [registerBlock]

/-- Registers are equal when every one of them reads the same. -/
theorem State.v_ext {s t : State} (h : ∀ x, s.reg x = t.reg x) : s.v = t.v := by
  apply Vector.ext
  intro k hk
  have := h (BitVec.ofNat 4 k)
  simp only [State.reg, BitVec.toNat_ofNat] at this
  simpa only [Nat.mod_eq_of_lt hk] using this

/-! Keys. -/

/-- All that the key scan can answer. -/
theorem leastKey_spec (keys : BitVec 16) :
    keys = 0 ∧ leastKey keys = none ∨
      ∃ k, k < 16 ∧ leastKey keys = some k ∧ keys.getLsbD k = true ∧ ∀ j < k, keys.getLsbD j = false := by
  cases h : leastKey keys with
  | none =>
    refine .inl ⟨BitVec.eq_of_getLsbD_eq (fun k hk => ?_), rfl⟩
    have := (List.find?_eq_none.mp h) k (List.mem_range.mpr hk)
    simpa using this
  | some k =>
    have := List.find?_range_eq_some.mp h
    exact .inr ⟨k, List.mem_range.mp this.2.1, rfl, this.1, fun j hj => by simpa using this.2.2 j hj⟩

/-! Display. -/

/-- A toggle flips the pixel at its coordinates, reduced mod 64 and mod 32, and no other. -/
theorem Display.pixel_toggle (d : Display) (px py qx qy : Nat) :
    (d.toggle px py).pixel qx qy =
      (d.pixel qx qy ^^ decide (qx % 64 = px % 64 ∧ qy % 32 = py % 32)) := by
  have hx : px % 64 < 64 := Nat.mod_lt _ (by decide)
  simp only [Display.toggle, Display.pixel, Config.dispW, Config.dispH, Vector.getElem_set]
  by_cases hy : py % 32 = qy % 32
  · simp only [hy, ↓reduceIte, BitVec.getLsbD_xor, BitVec.getLsbD_twoPow, hx, decide_true, Bool.true_and,
      and_true, eq_comm (a := px % 64)]
  · simp [hy, Ne.symm hy]

@[simp] theorem Display.pixel_blank (px py : Nat) : Display.blank.pixel px py = false := by
  simp [Display.blank, Display.pixel]

/-- A pixel depends on its coordinates mod 64 and mod 32 only. -/
theorem Display.pixel_mod (d : Display) (px py : Nat) : d.pixel (px % 64) (py % 32) = d.pixel px py := by
  simp [Display.pixel]

/-- Displays are equal when every pixel is. -/
theorem Display.ext_pixel {d e : Display} (h : ∀ px < 64, ∀ py < 32, d.pixel px py = e.pixel px py) : d = e := by
  apply Vector.ext
  intro py hy
  apply BitVec.eq_of_getLsbD_eq
  intro px hx
  have := h px hx py hy
  simpa [Display.pixel, Nat.mod_eq_of_lt hx, Nat.mod_eq_of_lt hy] using this

/-! The draw loop. -/

theorem drawRows_nil (vx py : Nat) (acc : DrawAcc) : drawRows vx py [] acc = acc := rfl

theorem drawRows_cons (vx py : Nat) (b : Byte) (bs : List Byte) (acc : DrawAcc) :
    drawRows vx py (b :: bs) acc = drawRows vx (py + 1) bs (drawRow vx py b acc) := rfl

end Sys2Proof.Machine
end

