-- ==== Sys2Proof/Laws/PerInstr.lean ====
section
/-! SUPPORT. The family OpcodeRow, one lemma per instruction: its word, whatever its fields, matches the row of the
opcode map that carries its mnemonic (spec/30_encoding.md R96, R101). -/

open Sys2Proof

/-- The instruction's word matches the row with its mnemonic. -/
def Sys2Proof.Laws.OpcodeRow.Statement (i : Instr) : Prop :=
  ∃ row ∈ opcodeMap, row.mnemonic = i.mnemonic ∧ encode i &&& row.mask = row.pattern

theorem Sys2Proof.formatA_mask (op : BitVec 4) (nnn : Addr12) : formatA op nnn &&& 0xF000 = formatK op 0#4 0#8 := by
  apply BitVec.eq_of_getLsbD_eq
  intro k hk
  interval_cases k <;> simp [formatA, formatK] <;> repeat (rw [BitVec.getElem_append]; simp)
theorem Sys2Proof.formatK_mask_op (op : BitVec 4) (x : RegIdx) (low : Byte) :
    formatK op x low &&& 0xF000 = formatK op 0#4 0#8 := by
  apply BitVec.eq_of_getLsbD_eq
  intro k hk
  interval_cases k <;> simp [formatK] <;> repeat (rw [BitVec.getElem_append]; simp)
theorem Sys2Proof.formatK_mask_sub (op : BitVec 4) (x : RegIdx) (low : Byte) :
    formatK op x low &&& 0xF0FF = formatK op 0#4 low := by
  apply BitVec.eq_of_getLsbD_eq
  intro k hk
  interval_cases k <;> simp [formatK] <;> repeat (rw [BitVec.getElem_append]; simp)
theorem Sys2Proof.formatR_mask_op (op : BitVec 4) (x y : RegIdx) (low : Nibble) :
    formatR op x y low &&& 0xF000 = formatK op 0#4 0#8 := by
  apply BitVec.eq_of_getLsbD_eq
  intro k hk
  interval_cases k <;> simp [formatR, formatK] <;> repeat (rw [BitVec.getElem_append]; simp)
theorem Sys2Proof.formatR_mask_sub (op : BitVec 4) (x y : RegIdx) (low : Nibble) :
    formatR op x y low &&& 0xF00F = formatR op 0#4 0#4 low := by
  apply BitVec.eq_of_getLsbD_eq
  intro k hk
  interval_cases k <;> simp [formatR] <;> repeat (rw [BitVec.getElem_append]; simp)

theorem Sys2Proof.Laws.OpcodeRow.cls : Sys2Proof.Laws.OpcodeRow.Statement .cls :=
  ⟨⟨"CLS", 0xFFFF, 0x00E0⟩, by decide, rfl, by decide⟩
theorem Sys2Proof.Laws.OpcodeRow.ret : Sys2Proof.Laws.OpcodeRow.Statement .ret :=
  ⟨⟨"RET", 0xFFFF, 0x00EE⟩, by decide, rfl, by decide⟩
theorem Sys2Proof.Laws.OpcodeRow.jp (nnn : Addr12) : Sys2Proof.Laws.OpcodeRow.Statement (.jp nnn) :=
  ⟨⟨"JP", 0xF000, 0x1000⟩, by decide, rfl, (formatA_mask _ nnn).trans (by decide)⟩
theorem Sys2Proof.Laws.OpcodeRow.call (nnn : Addr12) : Sys2Proof.Laws.OpcodeRow.Statement (.call nnn) :=
  ⟨⟨"CALL", 0xF000, 0x2000⟩, by decide, rfl, (formatA_mask _ nnn).trans (by decide)⟩
theorem Sys2Proof.Laws.OpcodeRow.seKk (x : RegIdx) (kk : Byte) : Sys2Proof.Laws.OpcodeRow.Statement (.seKk x kk) :=
  ⟨⟨"SE_KK", 0xF000, 0x3000⟩, by decide, rfl, (formatK_mask_op _ x kk).trans (by decide)⟩
theorem Sys2Proof.Laws.OpcodeRow.sneKk (x : RegIdx) (kk : Byte) : Sys2Proof.Laws.OpcodeRow.Statement (.sneKk x kk) :=
  ⟨⟨"SNE_KK", 0xF000, 0x4000⟩, by decide, rfl, (formatK_mask_op _ x kk).trans (by decide)⟩
theorem Sys2Proof.Laws.OpcodeRow.seReg (x y : RegIdx) : Sys2Proof.Laws.OpcodeRow.Statement (.seReg x y) :=
  ⟨⟨"SE_REG", 0xF00F, 0x5000⟩, by decide, rfl, (formatR_mask_sub _ x y _).trans (by decide)⟩
theorem Sys2Proof.Laws.OpcodeRow.ldKk (x : RegIdx) (kk : Byte) : Sys2Proof.Laws.OpcodeRow.Statement (.ldKk x kk) :=
  ⟨⟨"LD_KK", 0xF000, 0x6000⟩, by decide, rfl, (formatK_mask_op _ x kk).trans (by decide)⟩
theorem Sys2Proof.Laws.OpcodeRow.addKk (x : RegIdx) (kk : Byte) : Sys2Proof.Laws.OpcodeRow.Statement (.addKk x kk) :=
  ⟨⟨"ADD_KK", 0xF000, 0x7000⟩, by decide, rfl, (formatK_mask_op _ x kk).trans (by decide)⟩
theorem Sys2Proof.Laws.OpcodeRow.ldReg (x y : RegIdx) : Sys2Proof.Laws.OpcodeRow.Statement (.ldReg x y) :=
  ⟨⟨"LD_REG", 0xF00F, 0x8000⟩, by decide, rfl, (formatR_mask_sub _ x y _).trans (by decide)⟩
theorem Sys2Proof.Laws.OpcodeRow.orReg (x y : RegIdx) : Sys2Proof.Laws.OpcodeRow.Statement (.orReg x y) :=
  ⟨⟨"OR", 0xF00F, 0x8001⟩, by decide, rfl, (formatR_mask_sub _ x y _).trans (by decide)⟩
theorem Sys2Proof.Laws.OpcodeRow.andReg (x y : RegIdx) : Sys2Proof.Laws.OpcodeRow.Statement (.andReg x y) :=
  ⟨⟨"AND", 0xF00F, 0x8002⟩, by decide, rfl, (formatR_mask_sub _ x y _).trans (by decide)⟩
theorem Sys2Proof.Laws.OpcodeRow.xorReg (x y : RegIdx) : Sys2Proof.Laws.OpcodeRow.Statement (.xorReg x y) :=
  ⟨⟨"XOR", 0xF00F, 0x8003⟩, by decide, rfl, (formatR_mask_sub _ x y _).trans (by decide)⟩
theorem Sys2Proof.Laws.OpcodeRow.addReg (x y : RegIdx) : Sys2Proof.Laws.OpcodeRow.Statement (.addReg x y) :=
  ⟨⟨"ADD_REG", 0xF00F, 0x8004⟩, by decide, rfl, (formatR_mask_sub _ x y _).trans (by decide)⟩
theorem Sys2Proof.Laws.OpcodeRow.sub (x y : RegIdx) : Sys2Proof.Laws.OpcodeRow.Statement (.sub x y) :=
  ⟨⟨"SUB", 0xF00F, 0x8005⟩, by decide, rfl, (formatR_mask_sub _ x y _).trans (by decide)⟩
theorem Sys2Proof.Laws.OpcodeRow.shr (x y : RegIdx) : Sys2Proof.Laws.OpcodeRow.Statement (.shr x y) :=
  ⟨⟨"SHR", 0xF00F, 0x8006⟩, by decide, rfl, (formatR_mask_sub _ x y _).trans (by decide)⟩
theorem Sys2Proof.Laws.OpcodeRow.subn (x y : RegIdx) : Sys2Proof.Laws.OpcodeRow.Statement (.subn x y) :=
  ⟨⟨"SUBN", 0xF00F, 0x8007⟩, by decide, rfl, (formatR_mask_sub _ x y _).trans (by decide)⟩
theorem Sys2Proof.Laws.OpcodeRow.shl (x y : RegIdx) : Sys2Proof.Laws.OpcodeRow.Statement (.shl x y) :=
  ⟨⟨"SHL", 0xF00F, 0x800E⟩, by decide, rfl, (formatR_mask_sub _ x y _).trans (by decide)⟩
theorem Sys2Proof.Laws.OpcodeRow.sneReg (x y : RegIdx) : Sys2Proof.Laws.OpcodeRow.Statement (.sneReg x y) :=
  ⟨⟨"SNE_REG", 0xF00F, 0x9000⟩, by decide, rfl, (formatR_mask_sub _ x y _).trans (by decide)⟩
theorem Sys2Proof.Laws.OpcodeRow.ldI (nnn : Addr12) : Sys2Proof.Laws.OpcodeRow.Statement (.ldI nnn) :=
  ⟨⟨"LD_I", 0xF000, 0xA000⟩, by decide, rfl, (formatA_mask _ nnn).trans (by decide)⟩
theorem Sys2Proof.Laws.OpcodeRow.jpV0 (nnn : Addr12) : Sys2Proof.Laws.OpcodeRow.Statement (.jpV0 nnn) :=
  ⟨⟨"JP_V0", 0xF000, 0xB000⟩, by decide, rfl, (formatA_mask _ nnn).trans (by decide)⟩
theorem Sys2Proof.Laws.OpcodeRow.rnd (x : RegIdx) (kk : Byte) : Sys2Proof.Laws.OpcodeRow.Statement (.rnd x kk) :=
  ⟨⟨"RND", 0xF000, 0xC000⟩, by decide, rfl, (formatK_mask_op _ x kk).trans (by decide)⟩
theorem Sys2Proof.Laws.OpcodeRow.drw (x y : RegIdx) (n : Nibble) : Sys2Proof.Laws.OpcodeRow.Statement (.drw x y n) :=
  ⟨⟨"DRW", 0xF000, 0xD000⟩, by decide, rfl, (formatR_mask_op _ x y n).trans (by decide)⟩
theorem Sys2Proof.Laws.OpcodeRow.skp (x : RegIdx) : Sys2Proof.Laws.OpcodeRow.Statement (.skp x) :=
  ⟨⟨"SKP", 0xF0FF, 0xE09E⟩, by decide, rfl, (formatK_mask_sub _ x _).trans (by decide)⟩
theorem Sys2Proof.Laws.OpcodeRow.sknp (x : RegIdx) : Sys2Proof.Laws.OpcodeRow.Statement (.sknp x) :=
  ⟨⟨"SKNP", 0xF0FF, 0xE0A1⟩, by decide, rfl, (formatK_mask_sub _ x _).trans (by decide)⟩
theorem Sys2Proof.Laws.OpcodeRow.ldVxDt (x : RegIdx) : Sys2Proof.Laws.OpcodeRow.Statement (.ldVxDt x) :=
  ⟨⟨"LD_VX_DT", 0xF0FF, 0xF007⟩, by decide, rfl, (formatK_mask_sub _ x _).trans (by decide)⟩
theorem Sys2Proof.Laws.OpcodeRow.ldVxK (x : RegIdx) : Sys2Proof.Laws.OpcodeRow.Statement (.ldVxK x) :=
  ⟨⟨"LD_VX_K", 0xF0FF, 0xF00A⟩, by decide, rfl, (formatK_mask_sub _ x _).trans (by decide)⟩
theorem Sys2Proof.Laws.OpcodeRow.ldDtVx (x : RegIdx) : Sys2Proof.Laws.OpcodeRow.Statement (.ldDtVx x) :=
  ⟨⟨"LD_DT_VX", 0xF0FF, 0xF015⟩, by decide, rfl, (formatK_mask_sub _ x _).trans (by decide)⟩
theorem Sys2Proof.Laws.OpcodeRow.ldStVx (x : RegIdx) : Sys2Proof.Laws.OpcodeRow.Statement (.ldStVx x) :=
  ⟨⟨"LD_ST_VX", 0xF0FF, 0xF018⟩, by decide, rfl, (formatK_mask_sub _ x _).trans (by decide)⟩
theorem Sys2Proof.Laws.OpcodeRow.addIVx (x : RegIdx) : Sys2Proof.Laws.OpcodeRow.Statement (.addIVx x) :=
  ⟨⟨"ADD_I_VX", 0xF0FF, 0xF01E⟩, by decide, rfl, (formatK_mask_sub _ x _).trans (by decide)⟩
theorem Sys2Proof.Laws.OpcodeRow.ldFVx (x : RegIdx) : Sys2Proof.Laws.OpcodeRow.Statement (.ldFVx x) :=
  ⟨⟨"LD_F_VX", 0xF0FF, 0xF029⟩, by decide, rfl, (formatK_mask_sub _ x _).trans (by decide)⟩
theorem Sys2Proof.Laws.OpcodeRow.ldBVx (x : RegIdx) : Sys2Proof.Laws.OpcodeRow.Statement (.ldBVx x) :=
  ⟨⟨"LD_B_VX", 0xF0FF, 0xF033⟩, by decide, rfl, (formatK_mask_sub _ x _).trans (by decide)⟩
theorem Sys2Proof.Laws.OpcodeRow.ldMemVx (x : RegIdx) : Sys2Proof.Laws.OpcodeRow.Statement (.ldMemVx x) :=
  ⟨⟨"LD_MEM_VX", 0xF0FF, 0xF055⟩, by decide, rfl, (formatK_mask_sub _ x _).trans (by decide)⟩
theorem Sys2Proof.Laws.OpcodeRow.ldVxMem (x : RegIdx) : Sys2Proof.Laws.OpcodeRow.Statement (.ldVxMem x) :=
  ⟨⟨"LD_VX_MEM", 0xF0FF, 0xF065⟩, by decide, rfl, (formatK_mask_sub _ x _).trans (by decide)⟩
end

