-- ==== Sys2Proof/Laws/Step.lean ====
section
/-! SUPPORT. All that one Step can answer, for any handlers, and the word a running Step runs. -/

namespace Sys2Proof.Machine

/-- All that a Step can answer, the handlers given: nothing but the fault of a halted core when FAULT is set; a fatal
fetch; the handler of the decoded instruction; the warning. -/
theorem stepWith_cases (run : Instr → State → Host.Outcome State Fault Refusal) (s : State) :
    (∃ r, s.fault = some r ∧ stepWith run s = .fault (.halted r)) ∨
    s.fault = none ∧
      ((∃ a, fetch s = .error a ∧ stepWith run s = .next (s.raiseFatal .memOutOfBounds 0 a)) ∨
       (∃ w i, fetch s = .ok w ∧ decode w = .recognized i ∧ stepWith run s = run i s) ∨
       (∃ w, fetch s = .ok w ∧ decode w = .unrecognized w ∧ stepWith run s = .next (s.warn w).advance)) := by
  cases hf : s.fault with
  | some r => exact .inl ⟨r, rfl, by simp [stepWith, hf]⟩
  | none =>
    refine .inr ⟨rfl, ?_⟩
    cases hw : fetch s with
    | error a => exact .inl ⟨a, rfl, by simp [stepWith, hf, hw]⟩
    | ok w =>
      cases hd : decode w with
      | recognized i => exact .inr (.inl ⟨w, i, rfl, hd, by simp [stepWith, hf, hw, hd]⟩)
      | unrecognized u =>
        cases decode_unrecognized hd
        exact .inr (.inr ⟨w, rfl, hd, by simp [stepWith, hf, hw, hd, execUnrecognized]⟩)

/-- With no fault and a whole word at PC, a Step runs the word of the two bytes there. -/
theorem step_eq_runWord {s : State} (hf : s.fault = none) (hp : s.pc.toNat ≤ 4094) :
    step s = runWord (joinBytes (s.mem.read s.pc.toNat) (s.mem.read (s.pc.toNat + 1))) s := by
  rcases fetch_spec s with ⟨-, h⟩ | ⟨h, -⟩ | ⟨h, -⟩
  · simp only [step, stepWith, hf, h]
    rfl
  all_goals omega

end Sys2Proof.Machine
end

