-- ==== Sys2Proof/Tests/Slice0.lean ====
section
/-! SUPPORT. Tests of one step each, with results from the spec's vectors (spec/95_test_vectors.md), the decoding of one
word per instruction written out from its row of R96, the WellFormed smoke test, and for every obligation with
hypotheses a witness that meets them. -/

open Sys2Proof Sys2Proof.Machine

namespace Sys2Proof.Tests

/-! WellFormed: an image one byte too long is refused (H5, R233). Every instruction is well formed (R94, R101). -/

theorem test_wf_image_longest : imageWellFormed (List.replicate 3584 0) = true := by
  simp only [imageWellFormed, List.length_replicate]
  decide
theorem test_wf_image_too_long : imageWellFormed (List.replicate 3585 0) = false := by
  simp only [imageWellFormed, List.length_replicate]
  decide

/-! Decoding: op, then the fields, then the sub-opcode, from R92 and R96. -/

theorem test_decode_cls : decode 0b0000000011100000#16 = .recognized .cls := by decide
theorem test_decode_ret : decode 0b0000000011101110#16 = .recognized .ret := by decide
theorem test_decode_jp : decode 0b0001001000110100#16 = .recognized (.jp 0x234) := by decide
theorem test_decode_call : decode 0b0010001101000101#16 = .recognized (.call 0x345) := by decide
theorem test_decode_seKk : decode 0b0011101001000010#16 = .recognized (.seKk 0xA 0x42) := by decide
theorem test_decode_sneKk : decode 0b0100101001000010#16 = .recognized (.sneKk 0xA 0x42) := by decide
theorem test_decode_seReg : decode 0b0101000100100000#16 = .recognized (.seReg 1 2) := by decide
theorem test_decode_ldKk : decode 0b0110101000010010#16 = .recognized (.ldKk 0xA 0x12) := by decide
theorem test_decode_addKk : decode 0b0111101011111111#16 = .recognized (.addKk 0xA 0xFF) := by decide
theorem test_decode_ldReg : decode 0b1000000100100000#16 = .recognized (.ldReg 1 2) := by decide
theorem test_decode_orReg : decode 0b1000000100100001#16 = .recognized (.orReg 1 2) := by decide
theorem test_decode_andReg : decode 0b1000000100100010#16 = .recognized (.andReg 1 2) := by decide
theorem test_decode_xorReg : decode 0b1000000100100011#16 = .recognized (.xorReg 1 2) := by decide
theorem test_decode_addReg : decode 0b1000000100100100#16 = .recognized (.addReg 1 2) := by decide
theorem test_decode_sub : decode 0b1000000100100101#16 = .recognized (.sub 1 2) := by decide
theorem test_decode_shr : decode 0b1000000100100110#16 = .recognized (.shr 1 2) := by decide
theorem test_decode_subn : decode 0b1000000100100111#16 = .recognized (.subn 1 2) := by decide
theorem test_decode_shl : decode 0b1000000100101110#16 = .recognized (.shl 1 2) := by decide
theorem test_decode_sneReg : decode 0b1001000100100000#16 = .recognized (.sneReg 1 2) := by decide
theorem test_decode_ldI : decode 0b1010000100100011#16 = .recognized (.ldI 0x123) := by decide
theorem test_decode_jpV0 : decode 0b1011001100000000#16 = .recognized (.jpV0 0x300) := by decide
theorem test_decode_rnd : decode 0b1100000100001111#16 = .recognized (.rnd 1 0x0F) := by decide
theorem test_decode_drw : decode 0b1101010110100111#16 = .recognized (.drw 5 0xA 7) := by decide
theorem test_decode_skp : decode 0b1110000110011110#16 = .recognized (.skp 1) := by decide
theorem test_decode_sknp : decode 0b1110000110100001#16 = .recognized (.sknp 1) := by decide
theorem test_decode_ldVxDt : decode 0b1111010100000111#16 = .recognized (.ldVxDt 5) := by decide
theorem test_decode_ldVxK : decode 0b1111001100001010#16 = .recognized (.ldVxK 3) := by decide
theorem test_decode_ldDtVx : decode 0b1111010100010101#16 = .recognized (.ldDtVx 5) := by decide
theorem test_decode_ldStVx : decode 0b1111010100011000#16 = .recognized (.ldStVx 5) := by decide
theorem test_decode_addIVx : decode 0b1111000100011110#16 = .recognized (.addIVx 1) := by decide
theorem test_decode_ldFVx : decode 0b1111000100101001#16 = .recognized (.ldFVx 1) := by decide
theorem test_decode_ldBVx : decode 0b1111000000110011#16 = .recognized (.ldBVx 0) := by decide
theorem test_decode_ldMemVx : decode 0b1111001001010101#16 = .recognized (.ldMemVx 2) := by decide
theorem test_decode_ldVxMem : decode 0b1111001001100101#16 = .recognized (.ldVxMem 2) := by decide

/-- U-a, U-c, U-d, U-e, U-f, U-g, U-h: words one bit or one field off a row. -/
theorem test_decode_unrecognized :
    [0x0000, 0x0123, 0x00E1, 0x00FE, 0x5121, 0x9ABF, 0x8128, 0x812F, 0xE100, 0xE19F, 0xF000, 0xF1FF, 0xFFFF].all
      (fun w => decide (decode (BitVec.ofNat 16 w) = .unrecognized (BitVec.ofNat 16 w))) = true := by decide
/-- R101: the encoder's word of the vector of R92's worked decode, and the host's entry to the decoder. -/
theorem test_encode_drw : encode (.drw 5 0xA 7) = 0xD5A7#16 := by decide
theorem test_table_word : decodeTableWord 16 0xD5A7 = some (.drw 5 0xA 7) ∧ decodeTableWord 16 0x5121 = none := by decide
/-- R91: the high byte comes first; one byte alone is no instruction. -/
theorem test_decode_bytes : decodeBytes [0x12, 0x34, 0x56] = .ok (.jp 0x234, [0x56]) := by decide
theorem test_decode_truncated : decodeBytes [0x12] = .error (.truncated 1) := by decide

/-! One step. `after s w` is the state after a Step of `s` with the word `w` at its PC. -/

/-- The next state of a Step of `s` over what its memory holds. -/
def after1 (s : State) : Option State :=
  match step s with
  | .next t => some t
  | _ => none

/-- The next state of a Step of `s` with `w` stored at PC. -/
def after (s : State) (w : Nat) : Option State :=
  after1 (s.withFetchWord 16 w)

/-- The reset state with V1 and V2. -/
def v12 (a b : Byte) : State := (State.reset.setReg 1 a).setReg 2 b

/-- The reset state with VF and V1. -/
def vF1 (f a : Byte) : State := (State.reset.setReg 0xF f).setReg 1 a

/-- V1, VF and PC of an outcome. -/
def v1fp (t : Option State) : Option (Byte × Byte × Word) := t.map (fun t => (t.reg 1, t.reg 0xF, t.pc))

/-- VF and PC of an outcome. -/
def fp (t : Option State) : Option (Byte × Word) := t.map (fun t => (t.reg 0xF, t.pc))

/-- PC of an outcome. -/
def pcOf (t : Option State) : Option Word := t.map State.pc

/-- FAULT, PC and SP of an outcome. -/
def faultOf (t : Option State) : Option (Option FaultRecord × Word × Nat) := t.map (fun t => (t.fault, t.pc, t.sp.val))


/-- The reset state with a full stack, STACK[23] = 0x0111 (C6). -/
def sp24 : State := { State.reset with sp := 24, stack := State.reset.stack.set 23 0x0111 }

/-- The reset state with one entry on the stack (C4). -/
def sp1 : State := { State.reset with sp := 1, stack := State.reset.stack.set 0 0x0206 }

/-- The reset state with the key latch and V1. -/
def keysV1 (m : BitVec 16) (a : Byte) : State := { State.reset with keys := m, v := State.reset.v.set 1 a }

/-- The reset state with bytes from `a` upwards and I = a. -/
def memAt (a : Nat) (bytes : List Byte) : State := (State.reset.setMem (State.reset.mem.writeList a bytes)).setIndex (BitVec.ofNat 16 a)

/-- The reset state with DIRTY clear and a sprite at I = 0x300 (part 2.7). -/
def spriteAt (bytes : List Byte) : State := { memAt 0x300 bytes with dirty := false }

/-- The reset state with 23 entries on the stack. -/
def sp23 : State := { State.reset with sp := 23 }

/-- A core that a RET on the empty stack has stopped (C5). -/
def faulted : State := State.reset.raiseFatal .stackUnderflow 0x00EE 0

/-- All pixels 1, DIRTY clear (D1). -/
def litDisplay : State := { State.reset with disp := Vector.replicate 32 (BitVec.allOnes 64), dirty := false }

/-- A one-row sprite at I over a display with every pixel set. -/
def litSprite : State := { spriteAt [0x80] with disp := Vector.replicate 32 (BitVec.allOnes 64) }

/-- The bytes of memory from `a` upwards. -/
def bytesAt (t : State) (a n : Nat) : List Byte := (List.range n).map (fun k => t.mem.read (a + k))

/-- The set pixels of row 0, as (column, row). -/
def litPixels (t : State) : List (Nat × Nat) :=
  ((List.range 64).filter (fun px => t.disp.pixel px 0)).map (fun px => (px, 0))

/-- A1. -/
theorem test_ldKk : (after State.reset 0x6A12).map (fun t => (t.reg 0xA, t.pc)) = some (0x12, 0x202) := by decide
/-- C18. -/
theorem test_ldKk_at_end : pcOf (after (State.reset.setPc 0xFFE) 0x6000) = some 0x1000 := by decide
/-- S9, A2. -/
theorem test_addKk_wraps : (after (State.reset.setReg 0xA 0x02) 0x7AFF).map (fun t => (t.reg 0xA, t.reg 0xF, t.pc)) = some (0x01, 0, 0x202) := by decide
/-- A3. -/
theorem test_addKk_to_vf : fp (after (State.reset.setReg 0xF 0xFF) 0x7F01) = some (0, 0x202) := by decide
/-- A4. -/
theorem test_ldReg : v1fp (after (v12 0x01 0x77) 0x8120) = some (0x77, 0, 0x202) := by decide
/-- A5. -/
theorem test_orReg : v1fp (after ((v12 0x0F 0xF0).setReg 0xF 0x55) 0x8121) = some (0xFF, 0x55, 0x202) := by decide
/-- A6. -/
theorem test_andReg : v1fp (after (v12 0x3C 0x0F) 0x8122) = some (0x0C, 0, 0x202) := by decide
/-- A7. -/
theorem test_xorReg : v1fp (after (v12 0xFF 0x0F) 0x8123) = some (0xF0, 0, 0x202) := by decide
/-- A7b. -/
theorem test_xorReg_self : v1fp (after (v12 0xAB 0) 0x8113) = some (0, 0, 0x202) := by decide
/-- A10. -/
theorem test_addReg_carry : v1fp (after (v12 0xFF 0x01) 0x8124) = some (0, 1, 0x202) := by decide
/-- F1, F3b. -/
theorem test_addReg_vf : fp (after (vF1 0xFF 0x02) 0x8F14) = some (0x01, 0x202) ∧ v1fp (after (vF1 0x01 0x01) 0x81F4) = some (0x02, 0, 0x202) := by decide
/-- S2, A11. -/
theorem test_sub_borrow : v1fp (after (v12 0x10 0x20) 0x8125) = some (0xF0, 0, 0x202) := by decide
/-- A13. -/
theorem test_sub_equal : v1fp (after (v12 0x33 0x33) 0x8125) = some (0, 1, 0x202) := by decide
/-- A14. -/
theorem test_shr : (after (v12 0x05 0xFF) 0x8126).map (fun t => (t.reg 1, t.reg 0xF, t.reg 2)) = some (0x02, 1, 0xFF) := by decide
/-- F5. -/
theorem test_shr_vf : fp (after (vF1 0x07 0) 0x8F06) = some (0x03, 0x202) := by decide
/-- A17. -/
theorem test_subn : v1fp (after (v12 0x20 0x10) 0x8127) = some (0xF0, 0, 0x202) := by decide
/-- F12. -/
theorem test_subn_vf : v1fp (after (vF1 0x07 0x05) 0x81F7) = some (0x02, 1, 0x202) := by decide
/-- S3, A18. -/
theorem test_shl : v1fp (after (v12 0x85 0) 0x812E) = some (0x0A, 1, 0x202) := by decide
/-- F9. -/
theorem test_shl_vf : fp (after (vF1 0x81 0) 0x8F0E) = some (0x02, 0x202) := by decide
/-- S8, C1, X0. -/
theorem test_jp : pcOf (after State.reset 0x1234) = some 0x234 := by decide
/-- C3 with the call at 0x3FE. -/
theorem test_call : (after (State.reset.setPc 0x3FE) 0x2345).map (fun t => (t.stack[0], t.sp.val, t.pc)) = some (0x0400, 1, 0x345) := by decide
/-- C6. -/
theorem test_call_full : faultOf (after sp24 0x2345) = some (some ⟨.stackOverflow, 0x200, 0x2345, 24⟩, 0x200, 24) := by decide
/-- C4. -/
theorem test_ret : (after sp1 0x00EE).map (fun t => (t.pc, t.sp.val, t.stack[0])) = some (0x206, 0, 0x206) := by decide
/-- C5. -/
theorem test_ret_empty : faultOf (after State.reset 0x00EE) = some (some ⟨.stackUnderflow, 0x200, 0x00EE, 0⟩, 0x200, 0) := by decide
/-- C7, C8. -/
theorem test_seKk : pcOf (after (State.reset.setReg 0xA 0x42) 0x3A42) = some 0x204 ∧ pcOf (after (State.reset.setReg 0xA 0x43) 0x3A42) = some 0x202 := by decide
/-- C17. -/
theorem test_seKk_at_end : pcOf (after (State.reset.setPc 0xFFC) 0x3000) = some 0x1000 := by decide
/-- C9, C10. -/
theorem test_sneKk : pcOf (after (State.reset.setReg 0xA 0x42) 0x4A42) = some 0x202 ∧ pcOf (after (State.reset.setReg 0xA 0x43) 0x4A42) = some 0x204 := by decide
/-- C11, C12. -/
theorem test_seReg : pcOf (after (v12 7 7) 0x5120) = some 0x204 ∧ pcOf (after (v12 7 8) 0x5120) = some 0x202 := by decide
/-- C13, C14. -/
theorem test_sneReg : pcOf (after (v12 7 7) 0x9120) = some 0x202 ∧ pcOf (after (v12 7 8) 0x9120) = some 0x204 := by decide
/-- C16. -/
theorem test_jpV0 : pcOf (after (State.reset.setReg 0 0xFF) 0xBFFF) = some 0x10FE := by decide
/-- C15. -/
theorem test_jpV0_uses_v0 : pcOf (after (State.reset.setReg 0 0x10) 0xB300) = some 0x310 := by decide
/-- I1. -/
theorem test_ldI : (after State.reset 0xA123).map (fun t => (t.i, t.pc)) = some (0x123, 0x202) := by decide
/-- I4; the byte is free, so V1 is checked by the obligation RandomByteIsMasked. -/
theorem test_rnd_zero_mask : (after (v12 0x55 0) 0xC100).map (fun t => (t.draws, t.pc)) = some (1, 0x202) := by decide
/-- I6. -/
theorem test_addIVx_wraps : (after ((v12 0x02 0).setIndex 0xFFFF) 0xF11E).map (fun t => (t.i, t.reg 0xF, t.pc)) = some (0x0001, 0, 0x202) := by decide
/-- I5. -/
theorem test_addIVx_past_memory : (after ((v12 0x01 0).setIndex 0x0FFF) 0xF11E).map (fun t => (t.i, t.reg 0xF)) = some (0x1000, 0) := by decide
/-- I8. -/
theorem test_ldFVx : (after (v12 0xFF 0) 0xF129).map (fun t => (t.i, t.pc)) = some (0x04FB, 0x202) := by decide
/-- K6b, K2. -/
theorem test_skp : pcOf (after (keysV1 0x8000 0x0F) 0xE19E) = some 0x204 ∧ pcOf (after (keysV1 0x0020 0x04) 0xE19E) = some 0x202 := by decide
/-- K5. -/
theorem test_skp_no_key : pcOf (after (keysV1 0xFFFF 0x10) 0xE19E) = some 0x202 := by decide
/-- K3, K4. -/
theorem test_sknp : pcOf (after (keysV1 0x0020 0x05) 0xE1A1) = some 0x202 ∧ pcOf (after (keysV1 0x0020 0x04) 0xE1A1) = some 0x204 := by decide
/-- K6. -/
theorem test_sknp_no_key : pcOf (after (keysV1 0xFFFF 0x12) 0xE1A1) = some 0x204 := by decide
/-- K7. -/
theorem test_ldVxK_least : (after (keysV1 0x0104 0) 0xF30A).map (fun t => (t.reg 3, t.pc)) = some (0x02, 0x202) := by decide
/-- K8. -/
theorem test_ldVxK_waits : (after ((keysV1 0 0).setReg 3 0x77) 0xF30A).map (fun t => (t.reg 3, t.pc)) = some (0x77, 0x200) := by decide
/-- K10. -/
theorem test_ldVxDt : (after (State.reset.setDelay 0x3C) 0xF507).map (fun t => (t.reg 5, t.dt, t.pc)) = some (0x3C, 0x3C, 0x202) := by decide
/-- K11. -/
theorem test_ldDtVx : (after (State.reset.setReg 5 0x0A) 0xF515).map (fun t => (t.dt, t.st, t.pc)) = some (0x0A, 0, 0x202) := by decide
/-- K12. -/
theorem test_ldStVx : (after (State.reset.setReg 5 0x02) 0xF518).map (fun t => (t.st, t.dt, t.pc)) = some (0x02, 0, 0x202) := by decide
/-- M1. -/
theorem test_ldBVx : (after ((State.reset.setReg 0 0xFE).setIndex 0x300) 0xF033).map (fun t => (bytesAt t 0x300 3, t.i)) = some ([2, 5, 4], 0x300) := by decide
/-- M3. -/
theorem test_ldBVx_past_memory : (after ((State.reset.setReg 0 0xFF).setIndex 0xFFE) 0xF033).map (fun t => (t.fault, bytesAt t 0xFFE 2)) = some (some ⟨.memOutOfBounds, 0x200, 0xF033, 0x1000⟩, [0, 0]) := by decide
/-- M4. -/
theorem test_ldMemVx : (after (((v12 0x22 0x33).setReg 0 0x11).setIndex 0x400) 0xF255).map (fun t => (bytesAt t 0x400 4, t.i)) = some ([0x11, 0x22, 0x33, 0], 0x400) := by decide
/-- M6. -/
theorem test_ldMemVx_past_memory : faultOf (after (State.reset.setIndex 0xFF1) 0xFF55) = some (some ⟨.memOutOfBounds, 0x200, 0xFF55, 0x1000⟩, 0x200, 0) := by decide
/-- M7. -/
theorem test_ldVxMem_last : (after (memAt 0xFFF [0x5A]) 0xF065).map (fun t => (t.reg 0, t.i, t.pc)) = some (0x5A, 0xFFF, 0x202) := by decide
/-- M9. -/
theorem test_ldVxMem_past_memory : faultOf (after (State.reset.setIndex 0xFFFF) 0xF065) = some (some ⟨.memOutOfBounds, 0x200, 0xF065, 0xFFFF⟩, 0x200, 0) := by decide
/-- S7, D1. -/
theorem test_cls : (after litDisplay 0x00E0).map (fun t => (t.disp.pixel 0 0, t.disp.pixel 63 31, t.dirty, t.pc)) = some (false, false, true, 0x202) := by decide
/-- S5, D3b in row 0. -/
theorem test_drw_wraps : (after ((spriteAt [0xC0]).setReg 0 0x3F) 0xD011).map (fun t => (litPixels t, t.reg 0xF, t.dirty, t.pc)) = some ([(0, 0), (63, 0)], 0, true, 0x202) := by decide
/-- D9. -/
theorem test_drw_collides_on_vf : (after (((spriteAt [0x80]).setReg 0xF 3).setDisplay (Display.toggle Display.blank 3 2) false |>.setReg 1 2) 0xDF11).map (fun t => (t.disp.pixel 3 2, t.reg 0xF, t.dirty)) = some (false, 1, true) := by decide

/-! Fetch, unrecognized words and host events. -/

/-- U-a. -/
theorem test_unrecognized : (after (v12 0x09 0) 0x0000).map (fun t => (t.reg 1, t.pc, t.warnings, t.fault)) =
    some (0x09, 0x202, [⟨0x200, 0x0000⟩], none) := by decide
/-- X1. -/
theorem test_fetch_half : faultOf (after (State.reset.setPc 0xFFF) 0x0000) =
    some (some ⟨.memOutOfBounds, 0x0FFF, 0, 0x1000⟩, 0xFFF, 0) := by decide
/-- X3. -/
theorem test_fetch_far : faultOf (after (State.reset.setPc 0xFFFF) 0x0000) =
    some (some ⟨.memOutOfBounds, 0xFFFF, 0, 0xFFFF⟩, 0xFFFF, 0) := by decide
/-- X4. -/
theorem test_fetch_odd : (after (State.reset.setPc 0x201) 0x6A12).map (fun t => (t.reg 0xA, t.pc)) = some (0x12, 0x203) := by
  decide
/-- T2, T3, T4. -/
theorem test_tick : (tick (State.reset.setDelay 1)).dt = 0 ∧ (tick State.reset).dt = 0 ∧
    (tick ((State.reset.setDelay 0xFF).setSound 1)).dt = 0xFE ∧ (tick ((State.reset.setDelay 0xFF).setSound 1)).st = 0 := by
  decide
/-- T5. -/
theorem test_tick_faulted : (tick (faulted.setDelay 2)).dt = 2 := by decide
/-- H1, H2. -/
theorem test_host_writes : (hostSetKeys 0x0090 State.reset).keys = 0x0090 ∧ (hostClearDirty State.reset).dirty = false := by
  decide
/-- H3. -/
theorem test_reset : (hostReset { faulted with dirty := false }).fault = none ∧ (hostReset faulted).pc = 0x200 := by decide
/-- H4. -/
theorem test_host_load : bytesAt (hostLoad [0x12, 0x34, 0x56] State.reset) 0x200 4 = [0x12, 0x34, 0x56, 0] := by decide
/-- The value of `fault_cause` (R34, R202). -/
theorem test_fault_code : State.reset.faultCode = 0 ∧ faulted.faultCode = 2 := by decide
/-- The warning output of a step that meets an unrecognized word (R218). -/
theorem test_warning_output : (after State.reset 0x5121).map (warningOutput State.reset) = some (some ⟨0x200, 0x5121⟩) := by
  decide

/-! Witnesses: for each obligation with hypotheses, states and operands that meet them, at the boundary values of each
clause. -/

theorem witness_DecodeOfEncodeIsIdentity : (Instr.drw 5 0xA 7).wf = true ∧ (Instr.shl 0xF 0xF).wf = true := by decide
theorem witness_EncodeOfDecodeIsIdentity : decode 0x00E0#16 = .recognized .cls ∧
    decode 0xFF65#16 = .recognized (.ldVxMem 0xF) := by decide
theorem witness_DecodeFollowsOpcodeMap : ⟨"CLS", 0xFFFF, 0x00E0⟩ ∈ opcodeMap ∧ ⟨"LD_VX_MEM", 0xF0FF, 0xF065⟩ ∈ opcodeMap := by
  decide

/-- PC = 4094, the last address with a whole word, and the word 0x6A12 there. -/
def lastWord : State := (memAt 4094 [0x6A, 0x12]).setPc 4094

theorem witness_StepRunsDecodedInstruction : lastWord.fault = none ∧ lastWord.pc.toNat ≤ 4094 ∧
    decode (lastWord.mem.read lastWord.pc.toNat ++ lastWord.mem.read (lastWord.pc.toNat + 1)) =
      .recognized (.ldKk 0xA 0x12) := by decide
theorem witness_StoredWordRunsNext : lastWord.fault = none ∧ lastWord.pc.toNat ≤ 4094 := by decide
theorem witness_StepSkipsUnrecognizedWord : State.reset.fault = none ∧ State.reset.pc.toNat ≤ 4094 ∧
    (0x0000#16 = State.reset.mem.read State.reset.pc.toNat ++ State.reset.mem.read (State.reset.pc.toNat + 1)) ∧
    decode 0x0000#16 = .unrecognized 0x0000#16 := by decide
theorem witness_StepSkipsUnrecognizedWord_none : ∀ i, decode 0x0000#16 ≠ .recognized i := by
  have h : decode 0x0000#16 = .unrecognized 0x0000#16 := by decide
  intro i hi
  rw [h] at hi
  cases hi
theorem witness_FetchOutOfRangeIsFatal : (State.reset.setPc 4095).fault = none ∧ 4094 < (State.reset.setPc 4095).pc.toNat ∧
    4094 < (State.reset.setPc 0x10FE).pc.toNat := by decide
theorem witness_FaultedCoreMovesOnlyByReset : (Session.mk faulted true).core.fault = some ⟨.stackUnderflow, 0x200, 0x00EE, 0⟩ ∧
    (Session.mk faulted true).StoppedHasStarted := ⟨by decide, fun _ => rfl⟩
theorem witness_RunningStepAlwaysCompletes : State.reset.fault = none := by decide
theorem witness_HandlersAreFatalExactlyByTable_call : fatalCheck (.call 0x345) sp24 = some (.stackOverflow, 24) ∧
    fatalCheck (.call 0x345) sp23 = none := by decide
theorem witness_HandlersAreFatalExactlyByTable_ret : fatalCheck .ret State.reset = some (.stackUnderflow, 0) ∧
    fatalCheck .ret sp1 = none := by decide
theorem witness_HandlersAreFatalExactlyByTable_drw :
    fatalCheck (.drw 0 1 2) (State.reset.setIndex 0xFFF) = some (.memOutOfBounds, 4096) ∧
    fatalCheck (.drw 0 1 1) (State.reset.setIndex 0xFFF) = none ∧
    fatalCheck (.drw 0 1 0) (State.reset.setIndex 0xFFFF) = none := by decide
theorem witness_HandlersAreFatalExactlyByTable_block :
    fatalCheck (.ldBVx 0) (State.reset.setIndex 4094) = some (.memOutOfBounds, 4096) ∧
    fatalCheck (.ldBVx 0) (State.reset.setIndex 4093) = none ∧
    fatalCheck (.ldMemVx 0xF) (State.reset.setIndex 4081) = some (.memOutOfBounds, 4096) ∧
    fatalCheck (.ldMemVx 0xF) (State.reset.setIndex 4080) = none ∧
    fatalCheck (.ldVxMem 0) (State.reset.setIndex 0xFFFF) = some (.memOutOfBounds, 0xFFFF) ∧
    fatalCheck (.ldVxMem 0) (State.reset.setIndex 4095) = none := by decide

/-- Every `exec i s = next t` is met somewhere: the handlers that stop fatally answer a next state too. -/
theorem witness_exec_next : (∃ t, exec (.call 0x345) sp24 = .next t) ∧ (∃ t, exec .ret State.reset = .next t) ∧
    (∃ t, exec (.drw 0 1 2) (State.reset.setIndex 0xFFF) = .next t) ∧ (∃ t, exec .cls State.reset = .next t) ∧
    (∃ t, exec (.ldVxK 3) State.reset = .next t) ∧ (∃ t, exec (.ldMemVx 0xF) State.reset = .next t) :=
  ⟨⟨_, rfl⟩, ⟨_, rfl⟩, ⟨_, rfl⟩, ⟨_, rfl⟩, ⟨_, rfl⟩, ⟨_, rfl⟩⟩

/-- A state at the bounds of the invariant: the largest PC and a stack of the largest return addresses. -/
def edgeState : State := { (State.reset.setPc 0x10FE) with stack := Vector.replicate 24 4096 }

theorem witness_StepKeepsInvariant : edgeState.Inv ∧ ∃ t, step edgeState = .next t :=
  ⟨⟨by decide, by decide, fun k h => by simp [edgeState]⟩, ⟨_, rfl⟩⟩
theorem witness_EventsKeepInvariant : (Session.mk edgeState true).core.Inv ∧
    (∃ d, Session.apply .tick (Session.mk edgeState true) = .next d) :=
  ⟨witness_StepKeepsInvariant.1, ⟨_, rfl⟩⟩
theorem witness_EventsKeepFaultRecordTrue : (Session.mk faulted true).core.FaultInv ∧
    (∃ d, Session.apply (.hostSetKeys 1) (Session.mk faulted true) = .next d) :=
  ⟨⟨by rintro r ⟨⟩; rfl, by rintro r ⟨⟩ ⟨⟩, by rintro r ⟨⟩ -; decide, by rintro r ⟨⟩ ⟨⟩⟩, ⟨_, rfl⟩⟩
theorem witness_ReachableSessionsNeverWrapPc : Session.Reachable Session.initial ∧
    ∃ d, Session.Reachable d ∧ d.started = true :=
  ⟨.initial, _, .event .step .initial rfl, rfl⟩

/-! The whole-machine rules hold for every instruction that answers a next state (`witness_exec_next`); these are their
other premises. -/

theorem witness_OnlyCallAndReturnTouchStack : (∀ nnn, Instr.ret ≠ .call nnn) ∧ (∀ nnn, Instr.cls ≠ .call nnn) ∧
    Instr.cls ≠ .ret := by simp
theorem witness_OnlyIndexInstructionsWriteI : (∀ nnn, Instr.ldBVx 0 ≠ .ldI nnn) ∧ (∀ x, Instr.ldBVx 0 ≠ .addIVx x) ∧
    (∀ x, Instr.ldBVx 0 ≠ .ldFVx x) := by simp
theorem witness_OnlyIndexInstructionsWriteI_past : 4095 < (State.reset.setIndex 4096).i.toNat ∧ (1#4 ≠ 0#4) := by decide
theorem witness_TimersAndKeysWrittenOnlyByTheirInstructions : (∀ x, Instr.ldStVx 0 ≠ .ldDtVx x) ∧
    (∀ x, Instr.ldDtVx 0 ≠ .ldStVx x) := by simp
theorem witness_NoInstructionReadsSoundTimer : ∀ x, Instr.ldVxDt 0 ≠ .ldStVx x := by simp
theorem witness_DisplayChangesMarkDirty_pixel :
    (after ((spriteAt [0xC0]).setReg 0 0x3F) 0xD011).map
      (fun t => decide (t.disp.pixel 63 0 ≠ (spriteAt [0xC0]).disp.pixel 63 0)) = some true := by decide
theorem witness_DisplayChangesMarkDirty : Instr.ret ≠ .cls ∧ (∀ x y n, Instr.ret ≠ .drw x y n) ∧ State.reset.dirty = true := by
  refine ⟨by decide, by simp, rfl⟩
theorem witness_OnlyFlagInstructionsWriteFlag : writesFlag (.orReg 1 2) = false ∧ xOperand (.orReg 1 2) ≠ some 0xF#4 ∧
    writesFlag (.shl 1 2) = true ∧ fatalCheck (.shl 1 2) State.reset = none ∧ xOperand (.shl 1 2) ≠ some 0xF#4 := by decide
theorem witness_OnlyFlagInstructionsWriteFlag_drw : writesFlag (.drw 0xF 1 2) = true ∧
    fatalCheck (.drw 0xF 1 2) State.reset = none ∧ xOperand (.drw 0xF 1 2) = some 0xF#4 := by decide
theorem witness_PcUpdateFollowsClass : fatalCheck .ret sp1 = none ∧ fatalCheck (.call 0) sp23 = none ∧
    fatalCheck (.ldVxK 0) State.reset = none ∧ (∃ d, Session.apply .tick Session.initial = .next d) ∧
    Event.tick ≠ .step ∧ Event.tick ≠ .reset := ⟨by decide, by decide, by decide, ⟨_, rfl⟩, by decide, by decide⟩

/-! Results. -/

theorem witness_DrawTogglesCoveredPixels :
    ((0#4).toNat = 0 ∨ (State.reset.setIndex 0xFFFF).i.toNat + (0#4).toNat ≤ 4096) ∧
    ((15#4).toNat = 0 ∨ (State.reset.setIndex 4081).i.toNat + (15#4).toNat ≤ 4096) := by decide
theorem witness_DrawTogglesCoveredPixels_collides : spriteCollides litSprite 0 1 1 ∧ ¬ spriteCollides State.reset 0 1 1 := by
  refine ⟨⟨0, by decide, 0, by decide, by decide, by decide⟩, ?_⟩
  rintro ⟨row, hr, col, hc, h, -⟩
  have hb : spriteBit State.reset row col = false := by
    show (0#8).getLsbD (7 - col) = false
    simp
  rw [hb] at h
  cases h
theorem witness_DrawTwiceRestoresDisplay : (0#4 ≠ 0xF#4) ∧ (1#4 ≠ 0xF#4) ∧
    ((1#4).toNat = 0 ∨ litSprite.i.toNat + (1#4).toNat ≤ 4096) ∧ ∃ t, exec (.drw 0 1 1) litSprite = .next t :=
  ⟨by decide, by decide, by decide, ⟨_, rfl⟩⟩
theorem witness_ReturnPopsResumeAddress : sp1.sp.val = 0 + 1 ∧ sp24.sp.val = 23 + 1 ∧ State.reset.sp.val = 0 := by decide
theorem witness_CallPushesReturnAddress : State.reset.sp.val < 24 ∧ sp23.sp.val < 24 ∧ sp23.sp.val = 23 ∧ sp24.sp.val = 24 := by
  decide
theorem witness_CallThenReturnResumes : sp23.sp.val < 24 ∧ ∃ t, exec (.call 0x345) sp23 = .next t ∧ t.sp = t.sp ∧
    ∀ (k : Nat) (h : k < 24), k = sp23.sp.val → t.stack[k] = t.stack[k] :=
  ⟨by decide, _, rfl, rfl, fun _ _ _ => rfl⟩
theorem witness_SkipsChooseByComparison : (1#4 ≠ 0#4) ∧ (v12 7 7).reg 1 = 7 ∧ (v12 7 8).reg 1 ≠ 8 ∧ (v12 7 7).reg 1 = (v12 7 7).reg 2 ∧
    (v12 7 8).reg 1 ≠ (v12 7 8).reg 2 := by decide
theorem witness_KeyWaitTakesLeastKeyOrHolds_first : (keysV1 0x0001 0).keys.getLsbD 0 = true ∧
    ∀ j < 0, (keysV1 0x0001 0).keys.getLsbD j = false := by decide
theorem witness_KeyWaitTakesLeastKeyOrHolds_last : (keysV1 0x8000 0).keys.getLsbD 15 = true ∧
    ∀ j < 15, (keysV1 0x8000 0).keys.getLsbD j = false := by decide
theorem witness_KeyWaitTakesLeastKeyOrHolds_none : State.reset.keys = 0#16 := by decide
theorem witness_StoreDecimalDigits : (State.reset.setIndex 4093).i.toNat + 2 ≤ 4095 ∧
    4095 < (State.reset.setIndex 4094).i.toNat + 2 := by decide
theorem witness_StoreRegisterBlock : (State.reset.setIndex 4080).i.toNat + (15#4).toNat ≤ 4095 ∧
    (State.reset.setIndex 4095).i.toNat + (0#4).toNat ≤ 4095 ∧
    4095 < (State.reset.setIndex 4081).i.toNat + (15#4).toNat := by decide
theorem witness_LoadRegisterBlock : (State.reset.setIndex 4080).i.toNat + (15#4).toNat ≤ 4095 ∧
    (State.reset.setIndex 4095).i.toNat + (0#4).toNat ≤ 4095 ∧
    4095 < (State.reset.setIndex 4096).i.toNat + (0#4).toNat := by decide
theorem witness_StoreThenLoadRestoresRegisters : (State.reset.setIndex 4080).i.toNat + (15#4).toNat ≤ 4095 ∧
    ∃ t, exec (.ldMemVx 15) (State.reset.setIndex 4080) = .next t ∧ t.i = (State.reset.setIndex 4080).i ∧
      ∀ a, t.mem.read a = t.mem.read a := ⟨by decide, _, rfl, rfl, fun _ => rfl⟩
theorem witness_MemoryPrimitivesCheckBounds : 4095 < 4096 ∧ 4095 ≤ 4095 := by decide
theorem witness_CanonicalMemoriesWithSameBytesAreEqual : Memory.wf [(0, 1), (4095, 2)] ∧
    Memory.wf (((State.reset.mem.write 4095 2).write 0 1).write 7 0) ∧
    ∀ a, Memory.read [(0, 1), (4095, 2)] a = Memory.read (((State.reset.mem.write 4095 2).write 0 1).write 7 0) a :=
  ⟨by decide, by decide, fun _ => rfl⟩
theorem witness_TickCountsBothTimersDown : (State.reset.setDelay 0xFF).fault = none := by decide
theorem witness_HostWritesKeysAndClearsDirty : State.reset.fault = none := by decide
theorem witness_HostLoadCopiesImageVerbatim : Session.initial.started = false ∧
    (List.replicate 3584 (0x12 : Byte)).length ≤ 3584 ∧ 3584 < (List.replicate 3585 (0x12 : Byte)).length ∧
    (Session.mk State.reset true).started = true := by
  refine ⟨rfl, ?_, ?_, rfl⟩ <;> rw [List.length_replicate]
  decide
theorem witness_OnlyBlockStoresWriteMemory : (∀ x, Instr.ldVxMem 0 ≠ .ldBVx x) ∧ (∀ x, Instr.ldVxMem 0 ≠ .ldMemVx x) := by
  simp
theorem witness_OnlyBlockStoresWriteMemory_events : (Session.mk State.reset true).started = true ∧
    (∃ d, Session.apply .tick (Session.mk State.reset true) = .next d) ∧ Event.tick ≠ .step ∧ Event.tick ≠ .reset :=
  ⟨rfl, ⟨_, rfl⟩, by decide, by decide⟩

/-- P6 in one store: I = 0x202, V0 = 0x12, V1 = 0x0C. -/
def p6 : State := ((State.reset.setReg 0 0x12).setReg 1 0x0C).setIndex 0x202

/-- P6: the word that LD [I] has just stored at the next PC is the one the next Step runs. -/
theorem test_store_then_fetch : ((after p6 0xF155).bind (fun t => after1 t)).map (fun t => (t.pc, t.warnings)) =
    some (0x20C, []) := by decide
theorem witness_FaultedSessionHasStarted : (Session.mk faulted true).StoppedHasStarted ∧
    (∃ d, Session.apply .tick (Session.mk faulted true) = .next d) ∧
    Session.initial.StoppedHasStarted ∧ (∃ d, Session.apply (.hostLoad [0x12]) Session.initial = .next d) ∧
    Session.Reachable Session.initial :=
  ⟨fun _ => rfl, ⟨_, rfl⟩, fun h => absurd rfl h, ⟨_, rfl⟩, .initial⟩
/-- `u` is the state after the store with PC moved: whole word (PC = 0x202), then the last stored byte and the old byte after
it (PC = 0x203). -/
theorem witness_StoredBytesAreFetched_block : p6.i.toNat + (1#4).toNat ≤ 4095 ∧
    ∃ t, exec (.ldMemVx 1) p6 = .next t ∧ t.fault = none ∧ t.pc.toNat ≤ 4094 ∧ (t.setPc 0x203).fault = none ∧
      (t.setPc 0x203).pc.toNat ≤ 4094 ∧ ∀ a, (t.setPc 0x203).mem.read a = t.mem.read a :=
  ⟨by decide, _, rfl, by decide, by decide, by decide, by decide, fun _ => rfl⟩
theorem witness_StoredBytesAreFetched_decimal : (State.reset.setIndex 4093).i.toNat + 2 ≤ 4095 ∧
    ∃ t, exec (.ldBVx 0) (State.reset.setIndex 4093) = .next t ∧ (t.setPc 4094).fault = none ∧
      (t.setPc 4094).pc.toNat ≤ 4094 ∧ ∀ a, (t.setPc 4094).mem.read a = t.mem.read a :=
  ⟨by decide, _, rfl, by decide, by decide, fun _ => rfl⟩
theorem witness_DirtyIsSetByDrawingAndClearedByHost : (∃ t, exec (.drw 0 1 1) litSprite = .next t) ∧
    (∃ t, exec .cls State.reset = .next t) ∧ (∃ t, exec .ret State.reset = .next t) ∧ Instr.ret ≠ .cls ∧
    (∀ x y n, Instr.ret ≠ .drw x y n) ∧ (∃ t, execUnrecognized 0 State.reset = .next t) ∧ State.reset.fault = none ∧
    (∃ d, Session.apply .tick Session.initial = .next d) ∧ Event.tick ≠ .step ∧ Event.tick ≠ .reset ∧
    Event.tick ≠ .hostClearDirty :=
  ⟨⟨_, rfl⟩, ⟨_, rfl⟩, ⟨_, rfl⟩, by decide, by simp, ⟨_, rfl⟩, rfl, ⟨_, rfl⟩, by decide, by decide, by decide⟩
/-- 7AFF (A2) at the last address of a whole word; 1234 (C1), and 1200 at its own address (C2). -/
theorem witness_JumpAndAddByteRunFromMemory :
    let s := (memAt 4094 [0x7A, 0xFF]).setPc 4094
    let j := memAt 0x200 [0x12, 0x34]
    let l := memAt 0x200 [0x12, 0x00]
    s.fault = none ∧ s.pc.toNat ≤ 4094 ∧ s.mem.read s.pc.toNat = 0x7#4 ++ 0xA#4 ∧ s.mem.read (s.pc.toNat + 1) = 0xFF ∧
    j.fault = none ∧ j.pc.toNat ≤ 4094 ∧ j.mem.read j.pc.toNat = 0x1#4 ++ (0x234#12).extractLsb' 8 4 ∧
    j.mem.read (j.pc.toNat + 1) = (0x234#12).extractLsb' 0 8 ∧
    l.mem.read l.pc.toNat = 0x1#4 ++ (0x200#12).extractLsb' 8 4 ∧
    l.mem.read (l.pc.toNat + 1) = (0x200#12).extractLsb' 0 8 ∧ (0x200#12).toNat = l.pc.toNat := by decide

end Sys2Proof.Tests
end

section
/-! PROOFS. DRW as a whole, what a handler may do with DIRTY, and the rule of DIRTY (10_state.md R37). -/

namespace Sys2Proof.Machine

/-! The draw loop of DRW: the pixels it flips and whether it flips one (40_display.md R121, R122). -/

/-- The first `k` columns of the loop of `drawRow`. -/
def drawCols (vx py : Nat) (b : Byte) : Nat → DrawAcc → DrawAcc
  | 0, acc => acc
  | k + 1, acc =>
    if b.getLsbD (7 - k) then drawBit (vx + k) py (drawCols vx py b k acc) else drawCols vx py b k acc

theorem drawRow_eq_drawCols (vx py : Nat) (b : Byte) (acc : DrawAcc) :
    drawRow vx py b acc = drawCols vx py b 8 acc := rfl

/-- Two changes of a bit that exclude each other, one after the other. -/
theorem ne_iff_or_of_exclusive {old mid new : Bool} {p q : Prop} (hp : mid ≠ old ↔ p) (hq : new ≠ mid ↔ q)
    (hpq : p → ¬ q) : new ≠ old ↔ p ∨ q := by
  rw [← hp, ← hq] at hpq ⊢
  revert hpq
  cases old <;> cases mid <;> cases new <;> simp

theorem Display.pixel_toggle_ne_iff (d : Display) (px py qx qy : Nat) :
    (d.toggle px py).pixel qx qy ≠ d.pixel qx qy ↔ qx % 64 = px % 64 ∧ qy % 32 = py % 32 := by
  rw [Display.pixel_toggle]
  cases d.pixel qx qy <;> simp

theorem pixel_drawCols_ne_iff (vx py : Nat) (b : Byte) {k : Nat} (hk : k ≤ 8) (acc : DrawAcc) (qx qy : Nat) :
    (drawCols vx py b k acc).disp.pixel qx qy ≠ acc.disp.pixel qx qy ↔
      ∃ col < k, b.getLsbD (7 - col) = true ∧ qx % 64 = (vx + col) % 64 ∧ qy % 32 = py % 32 := by
  induction k with
  | zero => simp [drawCols]
  | succ k ih =>
    rw [Nat.exists_lt_succ_right, drawCols]
    by_cases hbit : b.getLsbD (7 - k) = true
    · simp only [hbit, ↓reduceIte, true_and]
      refine ne_iff_or_of_exclusive (ih (by omega)) (Display.pixel_toggle_ne_iff _ _ _ _ _) ?_
      rintro ⟨col, hcol, -, hx, -⟩ ⟨hx', -⟩
      omega
    · simpa [hbit] using ih (by omega)

theorem toggled_drawCols_iff (vx py : Nat) (b : Byte) (k : Nat) (acc : DrawAcc) :
    (drawCols vx py b k acc).toggled = true ↔ acc.toggled = true ∨ ∃ col < k, b.getLsbD (7 - col) = true := by
  induction k with
  | zero => simp [drawCols]
  | succ k ih =>
    rw [Nat.exists_lt_succ_right, drawCols]
    by_cases hbit : b.getLsbD (7 - k) = true
    · simp [hbit, drawBit]
    · simpa [hbit] using ih

/-- The rows `f 0`, `f 1`, ... drawn from row `py` down: the first, then the others one row lower. -/
theorem drawRows_map_range_succ (vx py n : Nat) (f : Nat → Byte) (acc : DrawAcc) :
    drawRows vx py ((List.range (n + 1)).map f) acc =
      drawRows vx (py + 1) ((List.range n).map (fun row => f (row + 1))) (drawRow vx py (f 0) acc) := by
  rw [List.range_succ_eq_map, List.map_cons, List.map_map, drawRows_cons]
  rfl

/-- At most 32 rows of 8 columns never meet a pixel twice, so what they cover is what they flip. -/
theorem pixel_drawRows_ne_iff (vx py : Nat) {n : Nat} (hn : n ≤ 32) (f : Nat → Byte) (acc : DrawAcc) (qx qy : Nat) :
    (drawRows vx py ((List.range n).map f) acc).disp.pixel qx qy ≠ acc.disp.pixel qx qy ↔
      ∃ row < n, ∃ col < 8, (f row).getLsbD (7 - col) = true ∧
        qx % 64 = (vx + col) % 64 ∧ qy % 32 = (py + row) % 32 := by
  induction n generalizing py f acc with
  | zero => simp [drawRows_nil]
  | succ n ih =>
    rw [drawRows_map_range_succ, Nat.exists_lt_succ_left, drawRow_eq_drawCols]
    have first := pixel_drawCols_ne_iff vx py (f 0) (Nat.le_refl 8) acc qx qy
    have others := ih (py + 1) (by omega) (fun row => f (row + 1)) (drawCols vx py (f 0) 8 acc)
    simp only [Nat.add_assoc, Nat.add_comm 1] at others
    refine ne_iff_or_of_exclusive first others ?_
    rintro ⟨col, -, -, -, hy⟩ ⟨row, hrow, col', -, -, -, hy'⟩
    omega

theorem toggled_drawRows_iff (vx py n : Nat) (f : Nat → Byte) (acc : DrawAcc) :
    (drawRows vx py ((List.range n).map f) acc).toggled = true ↔
      acc.toggled = true ∨ ∃ row < n, ∃ col < 8, (f row).getLsbD (7 - col) = true := by
  induction n generalizing py f acc with
  | zero => simp [drawRows_nil]
  | succ n ih =>
    rw [drawRows_map_range_succ, Nat.exists_lt_succ_left, ih, drawRow_eq_drawCols, toggled_drawCols_iff, or_assoc]

/-! All that DRW can answer. -/

/-- What the loop of DRW leaves when the sprite lies in memory. -/
def drawResult (s : State) (x y : RegIdx) (n : Nibble) : DrawAcc :=
  drawRows (s.reg x).toNat (s.reg y).toNat
    ((List.range n.toNat).map (fun row => s.mem.read (s.i.toNat + row))) ⟨s.disp, false, false⟩

/-- The state after a DRW whose sprite lies in memory. -/
def State.afterDraw (s : State) (x y : RegIdx) (n : Nibble) : State :=
  ((s.setDisplay (drawResult s x y n).disp (drawResult s x y n).toggled).setReg Config.flagReg
    (flagByte (drawResult s x y n).collision)).advance

theorem exec_drw_inside {x y : RegIdx} {n : Nibble} {s : State} (h : n.toNat = 0 ∨ s.i.toNat + n.toNat ≤ 4096) :
    exec (.drw x y n) s = .next (s.afterDraw x y n) := by
  simp only [exec, execDrw, memReadBlock, blockFault_none h, State.afterDraw, drawResult]

theorem exec_drw_outside {x y : RegIdx} {n : Nibble} {s : State}
    (h : ¬ (n.toNat = 0 ∨ s.i.toNat + n.toNat ≤ 4096)) :
    exec (.drw x y n) s =
      .next (s.raiseFatal .memOutOfBounds (encode (.drw x y n)) (max s.i.toNat 4096)) := by
  obtain ⟨hn, hbound⟩ := not_or.mp h
  simp only [exec, execDrw, memReadBlock, blockFault_some hn (Nat.lt_of_not_le hbound)]

theorem pixel_drawResult_ne_iff (s : State) (x y : RegIdx) (n : Nibble) (px py : Nat) :
    (drawResult s x y n).disp.pixel px py ≠ s.disp.pixel px py ↔ spriteCovers s x y n (px % 64) (py % 32) :=
  pixel_drawRows_ne_iff _ _ (by omega) _ _ _ _

theorem toggled_drawResult_iff (s : State) (x y : RegIdx) (n : Nibble) :
    (drawResult s x y n).toggled = true ↔ ∃ row < n.toNat, ∃ col < 8, spriteBit s row col = true := by
  simp [drawResult, toggled_drawRows_iff, spriteBit]

/-- DRW reports a toggle if and only if a pixel of the display ends up changed (40_display.md R121). -/
theorem toggled_drawResult_iff_pixel_ne (s : State) (x y : RegIdx) (n : Nibble) :
    (drawResult s x y n).toggled = true ↔
      ∃ px < 64, ∃ py < 32, (drawResult s x y n).disp.pixel px py ≠ s.disp.pixel px py := by
  simp only [toggled_drawResult_iff, pixel_drawResult_ne_iff]
  constructor
  · rintro ⟨row, hrow, col, hcol, hbit⟩
    exact ⟨((s.reg x).toNat + col) % 64, by omega, ((s.reg y).toNat + row) % 32, by omega,
      row, hrow, col, hcol, hbit, by omega, by omega⟩
  · rintro ⟨_, -, _, -, row, hrow, col, hcol, hbit, -⟩
    exact ⟨row, hrow, col, hcol, hbit⟩

theorem exec_drw_dirty_iff {x y : RegIdx} {n : Nibble} {s t : State} (h : exec (.drw x y n) s = .next t) :
    t.dirty = true ↔ s.dirty = true ∨ ∃ px < 64, ∃ py < 32, t.disp.pixel px py ≠ s.disp.pixel px py := by
  by_cases hin : n.toNat = 0 ∨ s.i.toNat + n.toNat ≤ 4096
  · cases (exec_drw_inside hin).symm.trans h
    simp [State.afterDraw, toggled_drawResult_iff_pixel_ne]
  · cases (exec_drw_outside hin).symm.trans h
    simp

/-! What a handler does with DIRTY. -/

/-- The state with DIRTY replaced. -/
def State.withDirty (s : State) (b : Bool) : State := { s with dirty := b }

@[simp] theorem State.withDirty_dirty (s : State) (b : Bool) : (s.withDirty b).dirty = b := rfl
@[simp] theorem State.withDirty_i (s : State) (b : Bool) : (s.withDirty b).i = s.i := rfl
@[simp] theorem State.withDirty_keys (s : State) (b : Bool) : (s.withDirty b).keys = s.keys := rfl
@[simp] theorem State.withDirty_reg (s : State) (b : Bool) (z : RegIdx) : (s.withDirty b).reg z = s.reg z := rfl
@[simp] theorem registerBlock_withDirty (s : State) (b : Bool) (x : RegIdx) :
    registerBlock (s.withDirty b) x = registerBlock s x := rfl
@[simp] theorem State.withDirty_self (s : State) : s.withDirty s.dirty = s := rfl

/-- An outcome with DIRTY of its next state replaced. -/
def outcomeWithDirty (b : Bool) : Host.Outcome State Fault Refusal → Host.Outcome State Fault Refusal
  | .next t => .next (t.withDirty b)
  | .fault r => .fault r
  | .refused r => .refused r

theorem execRet_withDirty (s : State) (b : Bool) :
    execRet (s.withDirty b) = outcomeWithDirty b (execRet s) := by
  unfold execRet
  rw [apply_ite (outcomeWithDirty b)]
  rfl

theorem execCall_withDirty (nnn : Addr12) (s : State) (b : Bool) :
    execCall nnn (s.withDirty b) = outcomeWithDirty b (execCall nnn s) := by
  unfold execCall
  rw [apply_dite (outcomeWithDirty b)]
  rfl

theorem execLdVxK_withDirty (x : RegIdx) (s : State) (b : Bool) :
    execLdVxK x (s.withDirty b) = outcomeWithDirty b (execLdVxK x s) := by
  unfold execLdVxK
  rw [State.withDirty_keys]
  cases leastKey s.keys <;> rfl

theorem memWriteBlock_withDirty (s : State) (b : Bool) (base : Nat) (vs : List Byte) :
    memWriteBlock (s.withDirty b) base vs = (memWriteBlock s base vs).map (·.withDirty b) := by
  unfold memWriteBlock
  cases blockFault base vs.length <;> rfl

theorem memReadBlock_withDirty (s : State) (b : Bool) (base n : Nat) :
    memReadBlock (s.withDirty b) base n = memReadBlock s base n := rfl

theorem State.loadRegs_withDirty (s : State) (b : Bool) (k : Nat) (bs : List Byte) :
    (s.withDirty b).loadRegs k bs = (s.loadRegs k bs).withDirty b := by
  induction bs generalizing s k with
  | nil => rfl
  | cons c cs ih => exact ih (s.setReg (BitVec.ofNat 4 k) c) (k + 1)

theorem execLdBVx_withDirty (x : RegIdx) (s : State) (b : Bool) :
    execLdBVx x (s.withDirty b) = outcomeWithDirty b (execLdBVx x s) := by
  unfold execLdBVx
  rw [memWriteBlock_withDirty, State.withDirty_reg, State.withDirty_i]
  cases memWriteBlock s s.i.toNat (decimalDigits (s.reg x)) <;> rfl

theorem execLdMemVx_withDirty (x : RegIdx) (s : State) (b : Bool) :
    execLdMemVx x (s.withDirty b) = outcomeWithDirty b (execLdMemVx x s) := by
  unfold execLdMemVx
  rw [memWriteBlock_withDirty, registerBlock_withDirty, State.withDirty_i]
  cases memWriteBlock s s.i.toNat (registerBlock s x) <;> rfl

theorem execLdVxMem_withDirty (x : RegIdx) (s : State) (b : Bool) :
    execLdVxMem x (s.withDirty b) = outcomeWithDirty b (execLdVxMem x s) := by
  unfold execLdVxMem
  rw [memReadBlock_withDirty, State.withDirty_i]
  cases memReadBlock s s.i.toNat (x.toNat + 1) with
  | error a => rfl
  | ok bytes =>
    simp only [State.loadRegs_withDirty]
    rfl

/-- Every instruction but CLS and DRW carries DIRTY along: neither the rest of the next state nor the choice of the
outcome depends on it. -/
theorem exec_withDirty {i : Instr} (hcls : i ≠ .cls) (hdrw : ∀ x y n, i ≠ .drw x y n) (s : State) (b : Bool) :
    exec i (s.withDirty b) = outcomeWithDirty b (exec i s) := by
  cases i with
  | cls => exact absurd rfl hcls
  | drw x y n => exact absurd rfl (hdrw x y n)
  | ret => exact execRet_withDirty s b
  | call nnn => exact execCall_withDirty nnn s b
  | ldVxK x => exact execLdVxK_withDirty x s b
  | ldBVx x => exact execLdBVx_withDirty x s b
  | ldMemVx x => exact execLdMemVx_withDirty x s b
  | ldVxMem x => exact execLdVxMem_withDirty x s b
  | _ => rfl

theorem exec_dirty_of_ne {i : Instr} (hcls : i ≠ .cls) (hdrw : ∀ x y n, i ≠ .drw x y n) {s t : State}
    (h : exec i s = .next t) : t.dirty = s.dirty := by
  have hself := exec_withDirty hcls hdrw s s.dirty
  rw [State.withDirty_self, h] at hself
  injection hself with hself
  rw [hself, State.withDirty_dirty]

theorem exec_drw_withDirty {x y : RegIdx} {n : Nibble} {s t : State} (b : Bool)
    (h : exec (.drw x y n) s = .next t) :
    ∃ u, exec (.drw x y n) (s.withDirty b) = .next u ∧ u.withDirty true = t.withDirty true := by
  by_cases hin : n.toNat = 0 ∨ s.i.toNat + n.toNat ≤ 4096
  · cases (exec_drw_inside hin).symm.trans h
    exact ⟨_, exec_drw_inside (s := s.withDirty b) hin, rfl⟩
  · cases (exec_drw_outside hin).symm.trans h
    exact ⟨_, exec_drw_outside (s := s.withDirty b) hin, rfl⟩

/-- No instruction reads DIRTY, CLS and DRW included (10_state.md R37). -/
theorem exec_noninterference_dirty (i : Instr) {s t : State} (b : Bool) (h : exec i s = .next t) :
    ∃ u, exec i (s.withDirty b) = .next u ∧ u.withDirty true = t.withDirty true := by
  by_cases hcls : i = .cls
  · subst hcls
    cases h
    exact ⟨_, rfl, rfl⟩
  by_cases hdrw : ∃ x y n, i = .drw x y n
  · obtain ⟨x, y, n, rfl⟩ := hdrw
    exact exec_drw_withDirty b h
  · refine ⟨t.withDirty b, ?_, rfl⟩
    rw [exec_withDirty hcls (fun x y n hi => hdrw ⟨x, y, n, hi⟩), h]
    rfl

/-! What the host does with DIRTY. -/

@[simp] theorem tick_dirty (s : State) : (tick s).dirty = s.dirty := by
  unfold tick
  split <;> rfl

@[simp] theorem hostSetKeys_dirty (m : BitVec 16) (s : State) : (hostSetKeys m s).dirty = s.dirty := by
  unfold hostSetKeys
  split <;> rfl

theorem hostClearDirty_of_running {s : State} (h : s.fault = none) : hostClearDirty s = s.withDirty false := by
  simp only [hostClearDirty, h, State.withDirty]

/-- A HostLoad that is not refused stores the image and nothing else. -/
theorem Session.apply_hostLoad_next {image : List Byte} {c d : Session} (h : c.apply (.hostLoad image) = .next d) :
    d = ⟨hostLoad image c.core, false⟩ := by
  simp only [Session.apply] at h
  split at h
  · cases h
  · split at h
    · cases h
    · cases h
      rfl

/-- Beside Step, only Reset and HostClearDirty write DIRTY (10_state.md R37, R41). -/
theorem Session.apply_dirty {e : Event} {c d : Session} (h : c.apply e = .next d) (hstep : e ≠ .step)
    (hreset : e ≠ .reset) (hclear : e ≠ .hostClearDirty) : d.core.dirty = c.core.dirty := by
  cases e with
  | step => exact absurd rfl hstep
  | reset => exact absurd rfl hreset
  | hostClearDirty => exact absurd rfl hclear
  | hostLoad image =>
    rw [Session.apply_hostLoad_next h]
    rfl
  | hostSetKeys m =>
    cases h
    exact hostSetKeys_dirty m c.core
  | tick =>
    cases h
    exact tick_dirty c.core

/-- Settles O58: DRW by the pixels its loop flips, the other instructions because they carry DIRTY along. -/
theorem dirtyIsSetByDrawingAndClearedByHost : Obligations.DirtyIsSetByDrawingAndClearedByHost := by
  refine ⟨fun s t hcls => ?cls, fun x y n s t hdrw => exec_drw_dirty_iff hdrw,
    fun i s t h hcls hdrw => exec_dirty_of_ne hcls hdrw h, fun w s t hwarn => ?unrecognized,
    fun i s t b h => exec_noninterference_dirty i b h, fun s hrun => ?clear, fun s => rfl,
    fun e c d h hstep hreset hclear => Session.apply_dirty h hstep hreset hclear⟩
  case cls =>
    cases hcls
    simp
  case unrecognized =>
    cases hwarn
    rfl
  case clear => rw [hostClearDirty_of_running hrun, State.withDirty_dirty]

end Sys2Proof.Machine
end

section
/-! PROOFS. CLS as a whole (40_display.md R120), and the frames of the two updates it is made of. -/

namespace Sys2Proof.Machine

/-! Frames of the updates. -/

/-- No frame speaks of PC, so falling through keeps every one. -/
theorem sameExcept_advance {changed : List Part} {s t : State} (h : sameExcept changed s t) :
    sameExcept changed s t.advance := by
  intro p hp
  have hpart : p.same s t := h p hp
  cases p <;> exact hpart

/-- Writing the display changes at most the pixels and DIRTY. -/
theorem sameExcept_setDisplay (s : State) (d : Display) (mark : Bool) :
    sameExcept [.display, .dirty] s (s.setDisplay d mark) := by
  intro p hp
  cases p with
  | display => simp at hp
  | dirty => simp at hp
  | regs => exact State.setDisplay_reg s d mark
  | memory => exact fun _ => rfl
  | _ => rfl

/-! CLS. -/

theorem exec_cls (s : State) : exec .cls s = .next (s.setDisplay Display.blank true).advance := rfl

/-- Settles O25: CLS blanks the display with the mark set, whatever DIRTY was, then falls through. -/
theorem clearDisplayZeroesAllPixels : Obligations.ClearDisplayZeroesAllPixels := by
  refine ⟨by decide, fun s => ⟨_, exec_cls s, fun px py => ?pixels, ?dirty, ?pc, ?frame⟩⟩
  case pixels => rw [State.advance_disp, State.setDisplay_disp, Display.pixel_blank]
  case dirty => rw [State.advance_dirty, State.setDisplay_dirty, Bool.or_true]
  case pc => rw [State.advance_pc, State.setDisplay_pc]
  case frame => exact sameExcept_advance (sameExcept_setDisplay s Display.blank true)

end Sys2Proof.Machine
end

section
/-! PROOFS. JP and ADD Vx, kk from the two bytes at PC to their effect (41_control_flow.md R131, 42_alu.md R141). -/

namespace Sys2Proof.Machine

/-! The bytes of a word in formats A and K, high byte first (30_encoding.md R91, R93), and what the two words decode to. -/

theorem joinBytes_bytes_formatA (op : BitVec 4) (nnn : Addr12) :
    joinBytes (op ++ nnn.extractLsb' 8 4) (nnn.extractLsb' 0 8) = formatA op nnn := by
  apply BitVec.eq_of_toNat_eq
  have hhigh : (op ++ nnn.extractLsb' 8 4).toNat = op.toNat * 16 + nnn.toNat / 256 % 16 := by
    rw [BitVec.toNat_append, ← Nat.shiftLeft_add_eq_or_of_lt (BitVec.isLt _), Nat.shiftLeft_eq,
      BitVec.extractLsb'_toNat, Nat.shiftRight_eq_div_pow]
  have hlow : (nnn.extractLsb' 0 8).toNat = nnn.toNat % 256 := by
    rw [BitVec.extractLsb'_toNat, Nat.shiftRight_zero]
  rw [toNat_joinBytes, toNat_formatA, hhigh, hlow]
  omega

theorem joinBytes_bytes_formatK (op : BitVec 4) (x : RegIdx) (low : Byte) :
    joinBytes (op ++ x) low = formatK op x low := rfl

theorem decode_jp (nnn : Addr12) : decode (formatA 0x1#4 nnn) = .recognized (.jp nnn) := by
  simp only [decode, opField_formatA, nnnField_formatA]

theorem decode_addKk (x : RegIdx) (kk : Byte) : decode (formatK 0x7#4 x kk) = .recognized (.addKk x kk) := by
  simp only [decode, opField_formatK, xField_formatK, kkField_formatK]

/-! A Step over the bytes of a recognized word. -/

/-- A running Step hands the state to the handler of the instruction that the two bytes at PC hold. -/
theorem step_eq_exec {s : State} {i : Instr} {hi lo : Byte} (hrun : s.fault = none) (hpc : s.pc.toNat ≤ 4094)
    (hhi : s.mem.read s.pc.toNat = hi) (hlo : s.mem.read (s.pc.toNat + 1) = lo)
    (hdec : decode (joinBytes hi lo) = .recognized i) : step s = exec i s := by
  rw [step_eq_runWord hrun hpc, hhi, hlo, runWord, hdec]

/-! What the two handlers answer, and the frames of the updates they are made of. -/

theorem exec_jp (nnn : Addr12) (s : State) : exec (.jp nnn) s = .next (s.setPc (addrWord nnn)) := rfl

theorem exec_addKk (x : RegIdx) (kk : Byte) (s : State) :
    exec (.addKk x kk) s = .next (s.setReg x (s.reg x + kk)).advance := rfl

theorem toNat_addrWord (nnn : Addr12) : (addrWord nnn).toNat = nnn.toNat :=
  BitVec.toNat_setWidth_of_le (by decide)

theorem State.setPc_self (s : State) : s.setPc s.pc = s := rfl

/-- No frame speaks of PC, so a write of PC alone keeps every part. -/
theorem sameExcept_setPc (s : State) (target : Word) : sameExcept [] s (s.setPc target) := by
  intro p _
  cases p with
  | regs | memory => exact fun _ => rfl
  | display => exact fun _ _ => rfl
  | _ => rfl

/-- Writing a register changes at most the registers. -/
theorem sameExcept_setReg (s : State) (x : RegIdx) (b : Byte) : sameExcept [.regs] s (s.setReg x b) := by
  intro p hp
  cases p with
  | regs => simp at hp
  | memory => exact fun _ => rfl
  | display => exact fun _ _ => rfl
  | _ => rfl

/-- Settles O59: each pair of bytes joins to a word that decodes to JP or ADD Vx, kk, and the Step is that handler. -/
theorem jumpAndAddByteRunFromMemory : Obligations.JumpAndAddByteRunFromMemory := by
  refine ⟨fun nnn s hrun hpc hhi hlo => ?jump, fun x kk s hrun hpc hhi hlo => ?add⟩
  case jump =>
    have hstep : step s = exec (.jp nnn) s :=
      step_eq_exec hrun hpc hhi hlo ((joinBytes_bytes_formatA 0x1#4 nnn).symm ▸ decode_jp nnn)
    refine ⟨_, hstep.trans (exec_jp nnn s), toNat_addrWord nnn, sameExcept_setPc s _, fun hself => ?_⟩
    have htarget : addrWord nnn = s.pc := BitVec.eq_of_toNat_eq ((toNat_addrWord nnn).trans hself)
    rw [htarget, State.setPc_self]
  case add =>
    have hstep : step s = exec (.addKk x kk) s :=
      step_eq_exec hrun hpc hhi hlo ((joinBytes_bytes_formatK 0x7#4 x kk).symm ▸ decode_addKk x kk)
    refine ⟨_, hstep.trans (exec_addKk x kk s), ?sum, fun z hz => ?others, ?pc,
      sameExcept_advance (sameExcept_setReg s x _)⟩
    case sum => rw [State.advance_reg, State.reg_setReg_self, BitVec.toNat_add]
    case others => rw [State.advance_reg, State.reg_setReg_ne _ _ hz]
    case pc => rw [State.advance_pc, State.setReg_pc]

end Sys2Proof.Machine
end

section
/-! PROOFS. The decoder and the encoder undo each other, and the decoder follows the opcode map (30_encoding.md R95 to
R97, R101). -/

namespace Sys2Proof.Machine

/-! Decoding a word made of its fields. -/

theorem decode_of_group15 {w : Word} (hop : opField w = 0xF#4) : decode w = decodeGroupF w := by
  unfold decode
  rw [hop]
  rfl

/-- The word of an instruction decodes to it: the group is read off the op field, then the fields off their format. -/
theorem decode_encode (i : Instr) : decode (encode i) = .recognized i := by
  cases i with
  | cls | ret => rfl
  | jp nnn | call nnn | ldI nnn | jpV0 nnn => simp only [encode, decode, opField_formatA, nnnField_formatA]
  | seKk x kk | sneKk x kk | ldKk x kk | addKk x kk | rnd x kk =>
    simp only [encode, decode, opField_formatK, xField_formatK, kkField_formatK]
  | skp x | sknp x =>
    simp only [encode, decode, decodeGroupE, opField_formatK, xField_formatK, kkField_formatK]
  | ldVxDt x | ldVxK x | ldDtVx x | ldStVx x | addIVx x | ldFVx x | ldBVx x | ldMemVx x | ldVxMem x =>
    simp only [encode, decode_of_group15 (opField_formatK _ _ _), decodeGroupF, xField_formatK, kkField_formatK]
  | seReg x y | sneReg x y =>
    simp only [encode, decode, opField_formatR, xField_formatR, yField_formatR, nField_formatR, ↓reduceIte]
  | drw x y n => simp only [encode, decode, opField_formatR, xField_formatR, yField_formatR, nField_formatR]
  | ldReg x y | orReg x y | andReg x y | xorReg x y | addReg x y | sub x y | shr x y | subn x y | shl x y =>
    simp only [encode, decode, decodeGroup8, opField_formatR, xField_formatR, yField_formatR, nField_formatR]

/-- Settles O1: by the format of each instruction. -/
theorem decodeOfEncodeIsIdentity : Obligations.DecodeOfEncodeIsIdentity :=
  fun i _ => decode_encode i

/-! Encoding what a word decodes to. A format filled with the word's own fields is the word. -/

theorem formatA_eq_of_opField {w : Word} {op : BitVec 4} (hop : opField w = op) : formatA op (nnnField w) = w :=
  hop ▸ formatA_fields w

theorem formatK_eq_of_opField {w : Word} {op : BitVec 4} (hop : opField w = op) :
    formatK op (xField w) (kkField w) = w :=
  hop ▸ formatK_fields w

theorem formatK_eq_of_fields {w : Word} {op : BitVec 4} {low : Byte} (hop : opField w = op) (hlow : kkField w = low) :
    formatK op (xField w) low = w :=
  hlow ▸ formatK_eq_of_opField hop

theorem formatR_eq_of_opField {w : Word} {op : BitVec 4} (hop : opField w = op) :
    formatR op (xField w) (yField w) (nField w) = w :=
  hop ▸ formatR_fields w

theorem formatR_eq_of_fields {w : Word} {op : BitVec 4} {low : Nibble} (hop : opField w = op) (hlow : nField w = low) :
    formatR op (xField w) (yField w) low = w :=
  hlow ▸ formatR_eq_of_opField hop

theorem encode_of_decodeGroup0 {w : Word} {i : Instr} (h : decodeGroup0 w = .recognized i) : encode i = w := by
  unfold decodeGroup0 at h
  split at h
  case isTrue hw => cases h; exact hw.symm
  case isFalse =>
    split at h
    case isTrue hw => cases h; exact hw.symm
    case isFalse => cases h

theorem encode_of_decodeGroup8 {w : Word} {i : Instr} (hop : opField w = 0x8#4)
    (h : decodeGroup8 w = .recognized i) : encode i = w := by
  unfold decodeGroup8 at h
  split at h <;> cases h <;> exact formatR_eq_of_fields hop ‹_›

theorem encode_of_decodeGroupE {w : Word} {i : Instr} (hop : opField w = 0xE#4)
    (h : decodeGroupE w = .recognized i) : encode i = w := by
  unfold decodeGroupE at h
  split at h <;> cases h <;> exact formatK_eq_of_fields hop ‹_›

theorem encode_of_decodeGroupF {w : Word} {i : Instr} (hop : opField w = 0xF#4)
    (h : decodeGroupF w = .recognized i) : encode i = w := by
  unfold decodeGroupF at h
  split at h <;> cases h <;> exact formatK_eq_of_fields hop ‹_›

/-- Settles O2: by the sixteen groups of the op field, the last of which is what the other fifteen leave. -/
theorem encodeOfDecodeIsIdentity : Obligations.EncodeOfDecodeIsIdentity := by
  intro w i h
  unfold decode at h
  split at h
  case h_1 => exact encode_of_decodeGroup0 h
  case h_2 hop | h_3 hop | h_11 hop | h_12 hop =>
    cases h
    exact formatA_eq_of_opField hop
  case h_4 hop | h_5 hop | h_7 hop | h_8 hop | h_13 hop =>
    cases h
    exact formatK_eq_of_opField hop
  case h_6 hop | h_10 hop =>
    split at h
    case isTrue hlow =>
      cases h
      exact formatR_eq_of_fields hop hlow
    case isFalse => cases h
  case h_9 hop => exact encode_of_decodeGroup8 hop h
  case h_14 hop =>
    cases h
    exact formatR_eq_of_opField hop
  case h_15 hop => exact encode_of_decodeGroupE hop h
  case h_16 =>
    simp only [imp_false] at *
    exact encode_of_decodeGroupF (by bv_omega) h

/-! The opcode map: a word whose masked bits are those of an op, or of an op and a sub-opcode, is the format filled with
them and the word's own fields. -/

theorem eq_of_mask_full {w p : Word} (h : w &&& 0xFFFF = p) : p = w := by
  have hmask : (0xFFFF : Word) = BitVec.allOnes 16 := by decide
  rw [← h, hmask, BitVec.and_allOnes]

theorem opField_of_mask {w p : Word} {op : BitVec 4} (h : w &&& 0xF000 = p) (hp : p = formatK op 0#4 0#8) :
    opField w = op := by
  rw [← formatA_fields w, formatA_mask, hp] at h
  rw [← opField_formatK (opField w) 0#4 0#8, h, opField_formatK]

theorem fields_of_mask_kk {w p : Word} {op : BitVec 4} {low : Byte} (h : w &&& 0xF0FF = p)
    (hp : p = formatK op 0#4 low) : opField w = op ∧ kkField w = low := by
  rw [← formatK_fields w, formatK_mask_sub, hp] at h
  constructor
  · rw [← opField_formatK (opField w) 0#4 (kkField w), h, opField_formatK]
  · rw [← kkField_formatK (opField w) 0#4 (kkField w), h, kkField_formatK]

theorem fields_of_mask_n {w p : Word} {op : BitVec 4} {low : Nibble} (h : w &&& 0xF00F = p)
    (hp : p = formatR op 0#4 0#4 low) : opField w = op ∧ nField w = low := by
  rw [← formatR_fields w, formatR_mask_sub, hp] at h
  constructor
  · rw [← opField_formatR (opField w) 0#4 0#4 (nField w), h, opField_formatR]
  · rw [← nField_formatR (opField w) 0#4 0#4 (nField w), h, nField_formatR]

theorem formatA_eq_of_mask {w p : Word} {op : BitVec 4} (h : w &&& 0xF000 = p)
    (hp : p = formatK op 0#4 0#8 := by decide) : formatA op (nnnField w) = w :=
  formatA_eq_of_opField (opField_of_mask h hp)

theorem formatK_eq_of_mask {w p : Word} {op : BitVec 4} (h : w &&& 0xF000 = p)
    (hp : p = formatK op 0#4 0#8 := by decide) : formatK op (xField w) (kkField w) = w :=
  formatK_eq_of_opField (opField_of_mask h hp)

theorem formatK_eq_of_mask_kk {w p : Word} {op : BitVec 4} {low : Byte} (h : w &&& 0xF0FF = p)
    (hp : p = formatK op 0#4 low := by decide) : formatK op (xField w) low = w :=
  have ⟨hop, hlow⟩ := fields_of_mask_kk h hp
  formatK_eq_of_fields hop hlow

theorem formatR_eq_of_mask {w p : Word} {op : BitVec 4} (h : w &&& 0xF000 = p)
    (hp : p = formatK op 0#4 0#8 := by decide) : formatR op (xField w) (yField w) (nField w) = w :=
  formatR_eq_of_opField (opField_of_mask h hp)

theorem formatR_eq_of_mask_n {w p : Word} {op : BitVec 4} {low : Nibble} (h : w &&& 0xF00F = p)
    (hp : p = formatR op 0#4 0#4 low := by decide) : formatR op (xField w) (yField w) low = w :=
  have ⟨hop, hlow⟩ := fields_of_mask_n h hp
  formatR_eq_of_fields hop hlow

/-- A word that matches a row is the word of an instruction of that row. -/
theorem exists_encode_of_matches {w : Word} :
    ∀ row ∈ opcodeMap, w &&& row.mask = row.pattern → ∃ i, encode i = w ∧ i.mnemonic = row.mnemonic := by
  simp only [opcodeMap, opcodeMapLow, opcodeMapHigh, List.cons_append, List.nil_append, List.forall_mem_cons]
  exact ⟨fun h => ⟨.cls, eq_of_mask_full h, rfl⟩,
    fun h => ⟨.ret, eq_of_mask_full h, rfl⟩,
    fun h => ⟨.jp (nnnField w), formatA_eq_of_mask h, rfl⟩,
    fun h => ⟨.call (nnnField w), formatA_eq_of_mask h, rfl⟩,
    fun h => ⟨.seKk (xField w) (kkField w), formatK_eq_of_mask h, rfl⟩,
    fun h => ⟨.sneKk (xField w) (kkField w), formatK_eq_of_mask h, rfl⟩,
    fun h => ⟨.seReg (xField w) (yField w), formatR_eq_of_mask_n h, rfl⟩,
    fun h => ⟨.ldKk (xField w) (kkField w), formatK_eq_of_mask h, rfl⟩,
    fun h => ⟨.addKk (xField w) (kkField w), formatK_eq_of_mask h, rfl⟩,
    fun h => ⟨.ldReg (xField w) (yField w), formatR_eq_of_mask_n h, rfl⟩,
    fun h => ⟨.orReg (xField w) (yField w), formatR_eq_of_mask_n h, rfl⟩,
    fun h => ⟨.andReg (xField w) (yField w), formatR_eq_of_mask_n h, rfl⟩,
    fun h => ⟨.xorReg (xField w) (yField w), formatR_eq_of_mask_n h, rfl⟩,
    fun h => ⟨.addReg (xField w) (yField w), formatR_eq_of_mask_n h, rfl⟩,
    fun h => ⟨.sub (xField w) (yField w), formatR_eq_of_mask_n h, rfl⟩,
    fun h => ⟨.shr (xField w) (yField w), formatR_eq_of_mask_n h, rfl⟩,
    fun h => ⟨.subn (xField w) (yField w), formatR_eq_of_mask_n h, rfl⟩,
    fun h => ⟨.shl (xField w) (yField w), formatR_eq_of_mask_n h, rfl⟩,
    fun h => ⟨.sneReg (xField w) (yField w), formatR_eq_of_mask_n h, rfl⟩,
    fun h => ⟨.ldI (nnnField w), formatA_eq_of_mask h, rfl⟩,
    fun h => ⟨.jpV0 (nnnField w), formatA_eq_of_mask h, rfl⟩,
    fun h => ⟨.rnd (xField w) (kkField w), formatK_eq_of_mask h, rfl⟩,
    fun h => ⟨.drw (xField w) (yField w) (nField w), formatR_eq_of_mask h, rfl⟩,
    fun h => ⟨.skp (xField w), formatK_eq_of_mask_kk h, rfl⟩,
    fun h => ⟨.sknp (xField w), formatK_eq_of_mask_kk h, rfl⟩,
    fun h => ⟨.ldVxDt (xField w), formatK_eq_of_mask_kk h, rfl⟩,
    fun h => ⟨.ldVxK (xField w), formatK_eq_of_mask_kk h, rfl⟩,
    fun h => ⟨.ldDtVx (xField w), formatK_eq_of_mask_kk h, rfl⟩,
    fun h => ⟨.ldStVx (xField w), formatK_eq_of_mask_kk h, rfl⟩,
    fun h => ⟨.addIVx (xField w), formatK_eq_of_mask_kk h, rfl⟩,
    fun h => ⟨.ldFVx (xField w), formatK_eq_of_mask_kk h, rfl⟩,
    fun h => ⟨.ldBVx (xField w), formatK_eq_of_mask_kk h, rfl⟩,
    fun h => ⟨.ldMemVx (xField w), formatK_eq_of_mask_kk h, rfl⟩,
    fun h => ⟨.ldVxMem (xField w), formatK_eq_of_mask_kk h, rfl⟩,
    by simp⟩

/-- Every instruction's word matches the row with its mnemonic. -/
theorem exists_row_of_encode (i : Instr) : Laws.OpcodeRow.Statement i := by
  cases i with
  | cls => exact Laws.OpcodeRow.cls
  | ret => exact Laws.OpcodeRow.ret
  | jp nnn => exact Laws.OpcodeRow.jp nnn
  | call nnn => exact Laws.OpcodeRow.call nnn
  | seKk x kk => exact Laws.OpcodeRow.seKk x kk
  | sneKk x kk => exact Laws.OpcodeRow.sneKk x kk
  | seReg x y => exact Laws.OpcodeRow.seReg x y
  | ldKk x kk => exact Laws.OpcodeRow.ldKk x kk
  | addKk x kk => exact Laws.OpcodeRow.addKk x kk
  | ldReg x y => exact Laws.OpcodeRow.ldReg x y
  | orReg x y => exact Laws.OpcodeRow.orReg x y
  | andReg x y => exact Laws.OpcodeRow.andReg x y
  | xorReg x y => exact Laws.OpcodeRow.xorReg x y
  | addReg x y => exact Laws.OpcodeRow.addReg x y
  | sub x y => exact Laws.OpcodeRow.sub x y
  | shr x y => exact Laws.OpcodeRow.shr x y
  | subn x y => exact Laws.OpcodeRow.subn x y
  | shl x y => exact Laws.OpcodeRow.shl x y
  | sneReg x y => exact Laws.OpcodeRow.sneReg x y
  | ldI nnn => exact Laws.OpcodeRow.ldI nnn
  | jpV0 nnn => exact Laws.OpcodeRow.jpV0 nnn
  | rnd x kk => exact Laws.OpcodeRow.rnd x kk
  | drw x y n => exact Laws.OpcodeRow.drw x y n
  | skp x => exact Laws.OpcodeRow.skp x
  | sknp x => exact Laws.OpcodeRow.sknp x
  | ldVxDt x => exact Laws.OpcodeRow.ldVxDt x
  | ldVxK x => exact Laws.OpcodeRow.ldVxK x
  | ldDtVx x => exact Laws.OpcodeRow.ldDtVx x
  | ldStVx x => exact Laws.OpcodeRow.ldStVx x
  | addIVx x => exact Laws.OpcodeRow.addIVx x
  | ldFVx x => exact Laws.OpcodeRow.ldFVx x
  | ldBVx x => exact Laws.OpcodeRow.ldBVx x
  | ldMemVx x => exact Laws.OpcodeRow.ldMemVx x
  | ldVxMem x => exact Laws.OpcodeRow.ldVxMem x

/-- A mnemonic names one row. -/
theorem opcodeMap_mnemonic_injective :
    ∀ row ∈ opcodeMap, ∀ row' ∈ opcodeMap, row.mnemonic = row'.mnemonic → row = row' := by
  decide

/-- A word is a row's instruction iff it matches the row (30_encoding.md R95, R96). -/
theorem matches_iff_decode {w : Word} {row : OpRow} (hrow : row ∈ opcodeMap) :
    w &&& row.mask = row.pattern ↔ ∃ i, decode w = .recognized i ∧ i.mnemonic = row.mnemonic := by
  constructor
  · intro hmatch
    obtain ⟨i, hword, hname⟩ := exists_encode_of_matches row hrow hmatch
    exact ⟨i, hword ▸ decode_encode i, hname⟩
  · rintro ⟨i, hdec, hname⟩
    obtain ⟨row', hrow', hname', hmatch⟩ := exists_row_of_encode i
    have hsame : row' = row := opcodeMap_mnemonic_injective row' hrow' row hrow (hname'.trans hname)
    rwa [hsame, encodeOfDecodeIsIdentity w i hdec] at hmatch

/-- Settles O3: the rows by their masks, and an unrecognized word is one that is no row's instruction. -/
theorem decodeFollowsOpcodeMap : Obligations.DecodeFollowsOpcodeMap := by
  refine fun w => ⟨fun row hrow => matches_iff_decode hrow, fun hunrec row hrow hmatch => ?_, fun hnone => ?_⟩
  · obtain ⟨i, hdec, -⟩ := (matches_iff_decode hrow).mp hmatch
    cases hunrec.symm.trans hdec
  · cases hdec : decode w with
    | unrecognized u => rw [decode_unrecognized hdec]
    | recognized i =>
      obtain ⟨row, hrow, hname, -⟩ := exists_row_of_encode i
      exact absurd ((matches_iff_decode hrow).mpr ⟨i, hdec, hname.symm⟩) (hnone row hrow)

/-- Settles O4: each of the twelve words is decoded. -/
theorem sampleWordsDecode : Obligations.SampleWordsDecode := by
  unfold Obligations.SampleWordsDecode
  decide

end Sys2Proof.Machine
end

section
/-! PROOFS. All that a handler can answer: the fatal outcome of the cause table (60_exceptions.md R202), or the state
that its row's effect gives. Which parts of the state each instruction writes. -/

namespace Sys2Proof.Machine

/-! Frames: two updates in a row, and each update of the state. -/

theorem Part.same_trans {p : Part} {s t u : State} (hst : p.same s t) (htu : p.same t u) : p.same s u := by
  cases p with
  | regs | memory => exact fun z => (htu z).trans (hst z)
  | display => exact fun px py => (htu px py).trans (hst px py)
  | _ => exact Eq.trans htu hst

theorem sameExcept_trans {changed : List Part} {s t u : State} (hst : sameExcept changed s t)
    (htu : sameExcept changed t u) : sameExcept changed s u :=
  fun p hp => Part.same_trans (hst p hp) (htu p hp)

theorem sameExcept_mono {changed more : List Part} {s t : State} (h : sameExcept changed s t)
    (hsub : changed ⊆ more) : sameExcept more s t :=
  fun p hp => h p (fun hmem => hp (hsub hmem))

theorem sameExcept_refl (changed : List Part) (s : State) : sameExcept changed s s :=
  sameExcept_mono (sameExcept_setPc s s.pc) (by simp)

theorem sameExcept_setIndex (s : State) (w : Word) : sameExcept [.index] s (s.setIndex w) := by
  intro p hp
  cases p <;> simp_all [Part.same]

theorem sameExcept_setDelay (s : State) (b : Byte) : sameExcept [.delay] s (s.setDelay b) := by
  intro p hp
  cases p <;> simp_all [Part.same]

theorem sameExcept_setSound (s : State) (b : Byte) : sameExcept [.sound] s (s.setSound b) := by
  intro p hp
  cases p <;> simp_all [Part.same]

theorem sameExcept_setMem (s : State) (m : Memory) : sameExcept [.memory] s (s.setMem m) := by
  intro p hp
  cases p <;> simp_all [Part.same]

theorem sameExcept_countDraw (s : State) : sameExcept [.draws] s s.countDraw := by
  intro p hp
  cases p <;> simp_all [Part.same]

theorem sameExcept_warn (s : State) (w : Word) : sameExcept [.warnings] s (s.warn w) := by
  intro p hp
  cases p <;> simp_all [Part.same]

theorem sameExcept_push (s : State) (w : Word) (room : s.sp.val < 24) : sameExcept [.stack, .sp] s (s.push w room) := by
  intro p hp
  cases p <;> simp_all [Part.same]

theorem sameExcept_pop (s : State) : sameExcept [.sp] s s.pop := by
  intro p hp
  cases p <;> simp_all [Part.same]

theorem sameExcept_raiseFatal (s : State) (cause : Cause) (word : Word) (addr : Nat) :
    sameExcept [.fault] s (s.raiseFatal cause word addr) := by
  intro p hp
  cases p <;> simp_all [Part.same]

theorem sameExcept_skipIf (s : State) (taken : Bool) : sameExcept [] s (s.skipIf taken) :=
  sameExcept_setPc s _

theorem sameExcept_writeFlagThenResult (s : State) (x : RegIdx) (flag : Bool) (result : Byte) :
    sameExcept [.regs] s (s.writeFlagThenResult x flag result) :=
  sameExcept_trans (sameExcept_setReg s _ _) (sameExcept_setReg _ x result)

theorem sameExcept_loadRegs (s : State) (k : Nat) (bs : List Byte) : sameExcept [.regs] s (s.loadRegs k bs) := by
  induction bs generalizing s k with
  | nil => exact sameExcept_refl _ s
  | cons b bs ih => exact sameExcept_trans (sameExcept_setReg s _ b) (ih _ _)

/-! The state after a handler that is not fatal. -/

/-- The state that the effect of an instruction's row gives. On a full stack, where CALL is fatal, it is not used. -/
def State.after (s : State) : Instr → State
  | .cls => (s.setDisplay Display.blank true).advance
  | .ret => s.pop.setPc s.top
  | .jp nnn => s.setPc (addrWord nnn)
  | .call nnn => if room : s.sp.val < 24 then (s.push (s.pc + 2#16) room).setPc (addrWord nnn) else s
  | .seKk x kk => s.skipIf (s.reg x == kk)
  | .sneKk x kk => s.skipIf (s.reg x != kk)
  | .seReg x y => s.skipIf (s.reg x == s.reg y)
  | .ldKk x kk => (s.setReg x kk).advance
  | .addKk x kk => (s.setReg x (s.reg x + kk)).advance
  | .ldReg x y => (s.setReg x (s.reg y)).advance
  | .orReg x y => (s.setReg x (s.reg x ||| s.reg y)).advance
  | .andReg x y => (s.setReg x (s.reg x &&& s.reg y)).advance
  | .xorReg x y => (s.setReg x (s.reg x ^^^ s.reg y)).advance
  | .addReg x y => (s.writeFlagThenResult x (carryOut (s.reg x) (s.reg y)) (s.reg x + s.reg y)).advance
  | .sub x y => (s.writeFlagThenResult x (notBorrow (s.reg x) (s.reg y)) (s.reg x - s.reg y)).advance
  | .shr x _ => (s.writeFlagThenResult x (shiftedOutLow (s.reg x)) (s.reg x >>> 1)).advance
  | .subn x y => (s.writeFlagThenResult x (notBorrow (s.reg y) (s.reg x)) (s.reg y - s.reg x)).advance
  | .shl x _ => (s.writeFlagThenResult x (shiftedOutHigh (s.reg x)) (s.reg x <<< 1)).advance
  | .sneReg x y => s.skipIf (s.reg x != s.reg y)
  | .ldI nnn => (s.setIndex (addrWord nnn)).advance
  | .jpV0 nnn => s.setPc (indexedTarget nnn (s.reg 0))
  | .rnd x kk => (s.countDraw.setReg x (Config.randomSource s.draws &&& kk)).advance
  | .drw x y n => s.afterDraw x y n
  | .skp x => s.skipIf (keyHeld s.keys (s.reg x))
  | .sknp x => s.skipIf (!keyHeld s.keys (s.reg x))
  | .ldVxDt x => (s.setReg x s.dt).advance
  | .ldVxK x => (leastKey s.keys).elim s (fun k => (s.setReg x (BitVec.ofNat 8 k)).advance)
  | .ldDtVx x => (s.setDelay (s.reg x)).advance
  | .ldStVx x => (s.setSound (s.reg x)).advance
  | .addIVx x => (s.setIndex (indexSum s.i (s.reg x))).advance
  | .ldFVx x => (s.setIndex (glyphAddress (s.reg x))).advance
  | .ldBVx x => (s.setMem (s.mem.writeList s.i.toNat (decimalDigits (s.reg x)))).advance
  | .ldMemVx x => (s.setMem (s.mem.writeList s.i.toNat (registerBlock s x))).advance
  | .ldVxMem x =>
    (s.loadRegs 0 ((List.range (x.toNat + 1)).map (fun k => s.mem.read (s.i.toNat + k)))).advance

/-- All that a handler can answer. -/
theorem exec_cases (i : Instr) (s : State) :
    fatalCheck i s = none ∧ exec i s = .next (s.after i) ∨
      ∃ c a, fatalCheck i s = some (c, a) ∧ exec i s = .next (s.raiseFatal c (encode i) a) := by
  cases i with
  | ret =>
    by_cases hempty : s.sp.val = 0
    · exact .inr ⟨_, _, if_pos hempty, by simp [exec, execRet, hempty]⟩
    · exact .inl ⟨if_neg hempty, by simp [exec, execRet, hempty, State.after]⟩
  | call nnn =>
    have hsp := s.sp.isLt
    by_cases hfull : s.sp.val = 24
    · exact .inr ⟨_, _, if_pos hfull, by simp [exec, execCall, hfull]⟩
    · have room : s.sp.val < 24 := by omega
      exact .inl ⟨if_neg hfull, by simp [exec, execCall, room, State.after]⟩
  | ldVxK x =>
    refine .inl ⟨rfl, ?_⟩
    simp only [exec, execLdVxK, State.after]
    cases leastKey s.keys <;> rfl
  | drw x y n =>
    by_cases hin : n.toNat = 0 ∨ s.i.toNat + n.toNat ≤ 4096
    · exact .inl ⟨if_neg (by omega), exec_drw_inside hin⟩
    · exact .inr ⟨_, _, if_pos (by omega), exec_drw_outside hin⟩
  | ldBVx x =>
    rcases memWriteBlock_spec s s.i.toNat (decimalDigits (s.reg x)) with ⟨hin, h⟩ | ⟨hout, h⟩
    · rw [length_decimalDigits] at hin
      exact .inl ⟨if_neg (by omega), by simp [exec, execLdBVx, h, State.after]⟩
    · rw [length_decimalDigits] at hout
      exact .inr ⟨_, _, if_pos (by omega), by simp [exec, execLdBVx, h]⟩
  | ldMemVx x =>
    rcases memWriteBlock_spec s s.i.toNat (registerBlock s x) with ⟨hin, h⟩ | ⟨hout, h⟩
    · rw [length_registerBlock] at hin
      exact .inl ⟨if_neg (by omega), by simp [exec, execLdMemVx, h, State.after]⟩
    · rw [length_registerBlock] at hout
      exact .inr ⟨_, _, if_pos (by omega), by simp [exec, execLdMemVx, h]⟩
  | ldVxMem x =>
    rcases memReadBlock_spec s s.i.toNat (x.toNat + 1) with ⟨hin, h⟩ | ⟨hout, h⟩
    · exact .inl ⟨if_neg (by omega), by simp [exec, execLdVxMem, h, State.after]⟩
    · exact .inr ⟨_, _, if_pos (by omega), by simp [exec, execLdVxMem, h]⟩
  | _ => exact .inl ⟨rfl, rfl⟩

theorem exec_of_fatalCheck_none {i : Instr} {s : State} (h : fatalCheck i s = none) : exec i s = .next (s.after i) := by
  rcases exec_cases i s with ⟨-, hexec⟩ | ⟨c, a, hfatal, -⟩
  · exact hexec
  · cases h.symm.trans hfatal

theorem exec_of_fatalCheck_some {i : Instr} {s : State} {c : Cause} {a : Nat} (h : fatalCheck i s = some (c, a)) :
    exec i s = .next (s.raiseFatal c (encode i) a) := by
  rcases exec_cases i s with ⟨hnone, -⟩ | ⟨c', a', hfatal, hexec⟩
  · cases h.symm.trans hnone
  · cases h.symm.trans hfatal
    exact hexec

/-- All that the next state of a handler can be. -/
theorem exec_next_cases {i : Instr} {s t : State} (h : exec i s = .next t) :
    fatalCheck i s = none ∧ t = s.after i ∨
      ∃ c a, fatalCheck i s = some (c, a) ∧ t = s.raiseFatal c (encode i) a := by
  rcases exec_cases i s with ⟨hnone, hexec⟩ | ⟨c, a, hfatal, hexec⟩
  · cases hexec.symm.trans h
    exact .inl ⟨hnone, rfl⟩
  · cases hexec.symm.trans h
    exact .inr ⟨c, a, hfatal, rfl⟩

/-! Which parts an instruction writes. -/

/-- The parts beside PC and FAULT that an instruction writes. -/
def writtenParts : Instr → List Part
  | .cls => [.display, .dirty]
  | .ret => [.sp]
  | .call _ => [.stack, .sp]
  | .jp _ | .jpV0 _ | .seKk _ _ | .sneKk _ _ | .seReg _ _ | .sneReg _ _ | .skp _ | .sknp _ => []
  | .ldKk _ _ | .addKk _ _ | .ldReg _ _ | .orReg _ _ | .andReg _ _ | .xorReg _ _ | .addReg _ _ | .sub _ _ | .shr _ _
  | .subn _ _ | .shl _ _ | .ldVxDt _ | .ldVxK _ | .ldVxMem _ => [.regs]
  | .rnd _ _ => [.regs, .draws]
  | .drw _ _ _ => [.regs, .display, .dirty]
  | .ldI _ | .addIVx _ | .ldFVx _ => [.index]
  | .ldDtVx _ => [.delay]
  | .ldStVx _ => [.sound]
  | .ldBVx _ | .ldMemVx _ => [.memory]

theorem sameExcept_afterDraw (s : State) (x y : RegIdx) (n : Nibble) :
    sameExcept [.regs, .display, .dirty] s (s.afterDraw x y n) :=
  sameExcept_advance (sameExcept_trans (sameExcept_mono (sameExcept_setDisplay s _ _) (by decide))
    (sameExcept_mono (sameExcept_setReg _ _ _) (by decide)))

/-- The frame of every instruction that is not fatal. -/
theorem sameExcept_after (s : State) (i : Instr) : sameExcept (writtenParts i) s (s.after i) := by
  cases i with
  | cls => exact sameExcept_advance (sameExcept_setDisplay s _ _)
  | ret => exact sameExcept_trans (sameExcept_pop s) (sameExcept_mono (sameExcept_setPc _ _) (by simp))
  | call nnn =>
    simp only [State.after]
    split
    case isTrue room =>
      exact sameExcept_trans (sameExcept_push s _ room) (sameExcept_mono (sameExcept_setPc _ _) (by simp))
    case isFalse => exact sameExcept_refl _ s
  | jp nnn | jpV0 nnn => exact sameExcept_setPc s _
  | seKk x kk | sneKk x kk => exact sameExcept_skipIf s _
  | seReg x y | sneReg x y => exact sameExcept_skipIf s _
  | skp x | sknp x => exact sameExcept_skipIf s _
  | ldKk x kk | addKk x kk => exact sameExcept_advance (sameExcept_setReg s x _)
  | ldReg x y | orReg x y | andReg x y | xorReg x y => exact sameExcept_advance (sameExcept_setReg s x _)
  | ldVxDt x => exact sameExcept_advance (sameExcept_setReg s x _)
  | addReg x y | sub x y | shr x y | subn x y | shl x y =>
    exact sameExcept_advance (sameExcept_writeFlagThenResult s x _ _)
  | rnd x kk =>
    exact sameExcept_advance (sameExcept_trans (sameExcept_mono (sameExcept_countDraw s) (by simp [writtenParts]))
      (sameExcept_mono (sameExcept_setReg _ x _) (by simp [writtenParts])))
  | drw x y n => exact sameExcept_afterDraw s x y n
  | ldVxK x =>
    simp only [State.after]
    cases leastKey s.keys with
    | none => exact sameExcept_refl _ s
    | some k => exact sameExcept_advance (sameExcept_setReg s x _)
  | ldI nnn => exact sameExcept_advance (sameExcept_setIndex s _)
  | addIVx x | ldFVx x => exact sameExcept_advance (sameExcept_setIndex s _)
  | ldDtVx x => exact sameExcept_advance (sameExcept_setDelay s _)
  | ldStVx x => exact sameExcept_advance (sameExcept_setSound s _)
  | ldBVx x | ldMemVx x => exact sameExcept_advance (sameExcept_setMem s _)
  | ldVxMem x => exact sameExcept_advance (sameExcept_loadRegs s _ _)

/-- A part that an instruction does not write is as before, in the fatal outcome too. -/
theorem exec_same {i : Instr} {s t : State} {p : Part} (h : exec i s = .next t) (hp : p ∉ writtenParts i)
    (hfault : p ≠ .fault) : p.same s t := by
  rcases exec_next_cases h with ⟨-, rfl⟩ | ⟨c, a, -, rfl⟩
  · exact sameExcept_after s i p hp
  · exact sameExcept_raiseFatal s c _ a p (by simpa using hfault)

theorem fault_notMem_writtenParts (i : Instr) : Part.fault ∉ writtenParts i := by
  cases i <;> simp [writtenParts]

@[simp] theorem State.after_fault (s : State) (i : Instr) : (s.after i).fault = s.fault :=
  sameExcept_after s i .fault (fault_notMem_writtenParts i)

/-- Settles O11: by what a handler can answer. -/
theorem handlersAreFatalExactlyByTable : Obligations.HandlersAreFatalExactlyByTable := by
  intro i s t h
  rcases exec_next_cases h with ⟨hnone, rfl⟩ | ⟨c, a, hfatal, rfl⟩
  · rw [hnone]
    exact State.after_fault s i
  · rw [hfatal]
    exact ⟨rfl, rfl, sameExcept_raiseFatal s c _ a⟩

/-! Whole-machine rules, each from the instructions that write the part. -/

theorem stack_mem_writtenParts {i : Instr} (h : Part.stack ∈ writtenParts i) : ∃ nnn, i = .call nnn := by
  cases i <;> simp_all [writtenParts]

theorem sp_mem_writtenParts {i : Instr} (h : Part.sp ∈ writtenParts i) : i = .ret ∨ ∃ nnn, i = .call nnn := by
  cases i <;> simp_all [writtenParts]

theorem index_mem_writtenParts {i : Instr} (h : Part.index ∈ writtenParts i) :
    (∃ nnn, i = .ldI nnn) ∨ (∃ x, i = .addIVx x) ∨ ∃ x, i = .ldFVx x := by
  cases i <;> simp_all [writtenParts]

theorem delay_mem_writtenParts {i : Instr} (h : Part.delay ∈ writtenParts i) : ∃ x, i = .ldDtVx x := by
  cases i <;> simp_all [writtenParts]

theorem sound_mem_writtenParts {i : Instr} (h : Part.sound ∈ writtenParts i) : ∃ x, i = .ldStVx x := by
  cases i <;> simp_all [writtenParts]

theorem keys_notMem_writtenParts (i : Instr) : Part.keys ∉ writtenParts i := by
  cases i <;> simp [writtenParts]

theorem memory_mem_writtenParts {i : Instr} (h : Part.memory ∈ writtenParts i) :
    (∃ x, i = .ldBVx x) ∨ ∃ x, i = .ldMemVx x := by
  cases i <;> simp_all [writtenParts]

theorem display_mem_writtenParts {i : Instr} (h : Part.display ∈ writtenParts i) :
    i = .cls ∨ ∃ x y n, i = .drw x y n := by
  cases i <;> simp_all [writtenParts]

/-- Settles O17: CALL alone writes the stack, CALL and RET alone write SP. -/
theorem onlyCallAndReturnTouchStack : Obligations.OnlyCallAndReturnTouchStack := by
  refine fun i s t h => ⟨fun hcall => ?_, fun hcall hret => ?_⟩
  · refine exec_same (p := .stack) h (fun hmem => ?_) (by decide)
    obtain ⟨nnn, hi⟩ := stack_mem_writtenParts hmem
    exact hcall nnn hi
  · refine exec_same (p := .sp) h (fun hmem => ?_) (by decide)
    obtain hi | ⟨nnn, hi⟩ := sp_mem_writtenParts hmem
    · exact hret hi
    · exact hcall nnn hi

/-- Settles O19: LD DT alone writes DT, LD ST alone writes ST, nothing writes KEYS. -/
theorem timersAndKeysWrittenOnlyByTheirInstructions : Obligations.TimersAndKeysWrittenOnlyByTheirInstructions := by
  refine fun i s t h => ⟨fun hdelay => ?_, fun hsound => ?_, ?_⟩
  · refine exec_same (p := .delay) h (fun hmem => ?_) (by decide)
    obtain ⟨x, hi⟩ := delay_mem_writtenParts hmem
    exact hdelay x hi
  · refine exec_same (p := .sound) h (fun hmem => ?_) (by decide)
    obtain ⟨x, hi⟩ := sound_mem_writtenParts hmem
    exact hsound x hi
  · exact exec_same (p := .keys) h (keys_notMem_writtenParts i) (by decide)

end Sys2Proof.Machine
end

section
/-! PROOFS. Who writes I, VF, PC, memory and the display, that nothing reads the sound timer, and all that an event can
do to a session. -/

namespace Sys2Proof.Machine

/-! I (10_state.md R27). -/

theorem toNat_indexSum (i : Word) (vx : Byte) : (indexSum i vx).toNat = (i.toNat + vx.toNat) % 65536 := by
  rw [indexSum, BitVec.toNat_add, BitVec.toNat_setWidth_of_le (by decide)]

theorem toNat_glyphAddress (vx : Byte) : (glyphAddress vx).toNat = vx.toNat * 5 := by
  have hvx := vx.isLt
  rw [glyphAddress, BitVec.toNat_ofNat]
  simp only [Config.glyphStride_eq]
  omega

/-- A value of I above 4095 is no address (10_state.md R27). -/
theorem fatalCheck_of_index_outside {x y : RegIdx} {n : Nibble} {s : State} {i : Instr} (hindex : 4095 < s.i.toNat)
    (hi : i = .drw x y n ∧ n ≠ 0#4 ∨ i = .ldBVx x ∨ i = .ldMemVx x ∨ i = .ldVxMem x) :
    fatalCheck i s = some (.memOutOfBounds, s.i.toNat) := by
  have hmax : max s.i.toNat 4096 = s.i.toNat := by omega
  obtain ⟨rfl, hn⟩ | rfl | rfl | rfl := hi
  · have hpos : n.toNat ≠ 0 := fun h => hn (BitVec.eq_of_toNat_eq h)
    rw [fatalCheck, if_pos (by omega), hmax]
  all_goals rw [fatalCheck, if_pos (by omega), hmax]

/-- Settles O18: the three writers by their values, the others by the frame, the use by the cause table. -/
theorem onlyIndexInstructionsWriteI : Obligations.OnlyIndexInstructionsWriteI := by
  refine ⟨fun nnn s => ⟨_, rfl, toNat_addrWord nnn⟩, fun x s => ⟨_, rfl, toNat_indexSum _ _⟩,
    fun x s => ⟨_, rfl, toNat_glyphAddress _⟩, fun i s t h hldI haddI hldF => ?frame,
    fun x y n s i hindex hi => ?fatal⟩
  case frame =>
    refine exec_same (p := .index) h (fun hmem => ?_) (by decide)
    obtain ⟨nnn, hi⟩ | ⟨x, hi⟩ | ⟨x, hi⟩ := index_mem_writtenParts hmem
    · exact hldI nnn hi
    · exact haddI x hi
    · exact hldF x hi
  case fatal =>
    refine ⟨_, _, exec_of_fatalCheck_some (fatalCheck_of_index_outside hindex hi), rfl, rfl, ?_⟩
    rw [BitVec.toNat_ofNat]
    omega

/-! ST (10_state.md R30). -/

theorem State.loadRegs_setSound (s : State) (b : Byte) (k : Nat) (bs : List Byte) :
    (s.setSound b).loadRegs k bs = (s.loadRegs k bs).setSound b := by
  induction bs generalizing s k with
  | nil => rfl
  | cons c cs ih => exact ih (s.setReg (BitVec.ofNat 4 k) c) (k + 1)

theorem fatalCheck_setSound (i : Instr) (s : State) (b : Byte) : fatalCheck i (s.setSound b) = fatalCheck i s := rfl

/-- No effect depends on ST. -/
theorem State.after_setSound (s : State) (i : Instr) (b : Byte) :
    ((s.setSound b).after i).setSound 0 = (s.after i).setSound 0 := by
  cases i with
  | call nnn =>
    by_cases room : s.sp.val < 24
    · simp only [State.after, State.setSound_sp, room, ↓reduceDIte]
      rfl
    · simp only [State.after, State.setSound_sp, room, ↓reduceDIte]
      rfl
  | ldVxK x =>
    simp only [State.after, State.setSound_keys]
    cases leastKey s.keys <;> rfl
  | ldVxMem x =>
    simp only [State.after, State.loadRegs_setSound]
    rfl
  | _ => rfl

/-- Settles O20: neither the cause table nor an effect looks at ST. -/
theorem noInstructionReadsSoundTimer : Obligations.NoInstructionReadsSoundTimer := by
  intro i s t b h
  have hrun : ∃ u, exec i (s.setSound b) = .next u ∧ u.setSound 0 = t.setSound 0 := by
    rcases exec_next_cases h with ⟨hnone, rfl⟩ | ⟨c, a, hfatal, rfl⟩
    · exact ⟨_, exec_of_fatalCheck_none ((fatalCheck_setSound i s b).trans hnone), State.after_setSound s i b⟩
    · exact ⟨_, exec_of_fatalCheck_some ((fatalCheck_setSound i s b).trans hfatal), rfl⟩
  obtain ⟨u, hu, hsame⟩ := hrun
  refine ⟨u, hu, hsame, fun hsound => exec_same (p := .sound) hu (fun hmem => ?_) (by decide)⟩
  obtain ⟨x, hi⟩ := sound_mem_writtenParts hmem
  exact hsound x hi

/-! The display (10_state.md R37). -/

theorem exec_cls_dirty {s t : State} (h : exec .cls s = .next t) : t.dirty = true := by
  cases (exec_cls s).symm.trans h
  rw [State.advance_dirty, State.setDisplay_dirty, Bool.or_true]

theorem exec_drw_dirty_of_pixel_ne {x y : RegIdx} {n : Nibble} {s t : State} (h : exec (.drw x y n) s = .next t)
    {px py : Nat} (hne : t.disp.pixel px py ≠ s.disp.pixel px py) : t.dirty = true := by
  rw [← Display.pixel_mod, ← Display.pixel_mod s.disp] at hne
  exact (exec_drw_dirty_iff h).mpr (.inr ⟨_, Nat.mod_lt _ (by decide), _, Nat.mod_lt _ (by decide), hne⟩)

theorem exec_disp_of_ne {i : Instr} (hcls : i ≠ .cls) (hdrw : ∀ x y n, i ≠ .drw x y n) {s t : State}
    (h : exec i s = .next t) : t.disp = s.disp := by
  refine Display.ext_pixel fun px _ py _ => exec_same (p := .display) h (fun hmem => ?_) (by decide) px py
  obtain hi | ⟨x, y, n, hi⟩ := display_mem_writtenParts hmem
  · exact hcls hi
  · exact hdrw x y n hi

/-- Settles O21: CLS always marks, DRW marks what it toggles, the others touch neither. -/
theorem displayChangesMarkDirty : Obligations.DisplayChangesMarkDirty := by
  intro i s t h
  by_cases hcls : i = .cls
  · subst hcls
    have hdirty := exec_cls_dirty h
    exact ⟨fun _ => hdirty, fun _ _ _ => hdirty, fun hne => absurd rfl hne⟩
  by_cases hdrw : ∃ x y n, i = .drw x y n
  · obtain ⟨x, y, n, rfl⟩ := hdrw
    exact ⟨fun hs => (exec_drw_dirty_iff h).mpr (.inl hs), fun _ _ hne => exec_drw_dirty_of_pixel_ne h hne,
      fun _ hne => absurd rfl (hne x y n)⟩
  · have hdrw' : ∀ x y n, i ≠ .drw x y n := fun x y n hi => hdrw ⟨x, y, n, hi⟩
    have hdisp := exec_disp_of_ne hcls hdrw' h
    have hdirty := exec_dirty_of_ne hcls hdrw' h
    exact ⟨fun hs => hdirty.trans hs, fun px py hne => absurd (hdisp ▸ rfl) hne, fun _ _ => ⟨hdisp, hdirty⟩⟩

/-! VF (10_state.md R22, R23). -/

theorem flagByte_eq_zero_or_one (b : Bool) : flagByte b = 0#8 ∨ flagByte b = 1#8 := by
  cases b
  · exact .inl rfl
  · exact .inr rfl

theorem State.reg_flag_afterDraw (s : State) (x y : RegIdx) (n : Nibble) :
    (s.afterDraw x y n).reg 0xF#4 = flagByte (drawResult s x y n).collision :=
  State.reg_setReg_self _ _ _

/-- The registers a block load of V0..Vx reaches hold the bytes from I upwards, those above x are as before
(45_memory_transfer.md R182). -/
theorem State.reg_after_ldVxMem (s : State) (x z : RegIdx) :
    (s.after (.ldVxMem x)).reg z = if z.toNat ≤ x.toNat then s.mem.read (s.i.toNat + z.toNat) else s.reg z := by
  have hx := x.isLt
  rw [State.after, State.advance_reg, State.reg_loadRegs _ _ _ (by simp; omega)]
  by_cases hz : z.toNat ≤ x.toNat
  · simp [hz, Nat.lt_succ_of_le hz]
  · simp [hz]

/-- An instruction outside the flag table leaves VF alone, unless it names VF in its x field. -/
theorem State.reg_flag_after {i : Instr} (hflag : writesFlag i = false) (hx : xOperand i ≠ some 0xF#4) (s : State) :
    (s.after i).reg 0xF#4 = s.reg 0xF#4 := by
  cases i with
  | addReg x y | sub x y | shr x y | subn x y | shl x y => cases hflag
  | drw x y n => cases hflag
  | ldKk x kk | addKk x kk | rnd x kk => exact State.reg_setReg_ne _ _ (fun h => hx (congrArg some h.symm))
  | ldReg x y | orReg x y | andReg x y | xorReg x y =>
    exact State.reg_setReg_ne _ _ (fun h => hx (congrArg some h.symm))
  | ldVxDt x => exact State.reg_setReg_ne _ _ (fun h => hx (congrArg some h.symm))
  | ldVxK x =>
    simp only [State.after]
    cases leastKey s.keys with
    | none => rfl
    | some k => exact State.reg_setReg_ne _ _ (fun h => hx (congrArg some h.symm))
  | ldVxMem x =>
    have hne : x.toNat ≠ 15 := fun h => hx (congrArg some (BitVec.eq_of_toNat_eq h))
    have hlt := x.isLt
    rw [State.reg_after_ldVxMem, if_neg]
    simp only [BitVec.toNat_ofNat]
    omega
  | _ => exact sameExcept_after s _ .regs (by simp [writtenParts]) 0xF#4

/-- After a flag write and the write of another register, VF is a flag value. -/
theorem State.reg_flag_writeFlagThenResult (s : State) {x : RegIdx} (hx : x ≠ 0xF#4) (f : Bool) (b : Byte) :
    (s.writeFlagThenResult x f b).reg 0xF#4 = flagByte f := by
  rw [State.reg_writeFlagThenResult, if_neg hx.symm, if_pos rfl]

/-- An instruction of the flag table leaves 0 or 1 in VF, unless its result goes there. -/
theorem State.reg_flag_after_eq_flagByte {i : Instr} (hflag : writesFlag i = true)
    (hx : xOperand i = some 0xF#4 → ∃ x y n, i = .drw x y n) (s : State) :
    ∃ f, (s.after i).reg 0xF#4 = flagByte f := by
  cases i with
  | drw x y n => exact ⟨_, State.reg_flag_afterDraw s x y n⟩
  | addReg x y | sub x y | shr x y | subn x y | shl x y =>
    have hne : x ≠ 0xF#4 := fun h => by
      obtain ⟨x', y', n', hdrw⟩ := hx (congrArg some h)
      cases hdrw
    exact ⟨_, State.reg_flag_writeFlagThenResult s hne _ _⟩
  | _ => cases hflag

/-- Settles O22: by the two kinds of instruction, a fatal one writing no register. -/
theorem onlyFlagInstructionsWriteFlag : Obligations.OnlyFlagInstructionsWriteFlag := by
  refine fun i s t h => ⟨fun hflag hx => ?_, fun hflag hnone hx => ?_⟩
  · rcases exec_next_cases h with ⟨-, rfl⟩ | ⟨c, a, -, rfl⟩
    · exact State.reg_flag_after hflag hx s
    · exact State.raiseFatal_reg s c _ a _
  · cases (exec_of_fatalCheck_none hnone).symm.trans h
    obtain ⟨f, hf⟩ := State.reg_flag_after_eq_flagByte hflag hx s
    exact hf ▸ flagByte_eq_zero_or_one f

/-! Events: all that the next session can be (10_state.md R41). -/

theorem tick_eq (s : State) : tick s = { s with dt := (tick s).dt, st := (tick s).st } := by
  unfold tick
  split <;> rfl

theorem hostSetKeys_eq (m : BitVec 16) (s : State) : hostSetKeys m s = { s with keys := (hostSetKeys m s).keys } := by
  unfold hostSetKeys
  split <;> rfl

theorem hostClearDirty_eq (s : State) : hostClearDirty s = { s with dirty := (hostClearDirty s).dirty } := by
  unfold hostClearDirty
  split <;> rfl

/-- The state with what Tick, HostSetKeys and HostClearDirty can write replaced. -/
def State.withHostWrites (s : State) (dt st : Byte) (keys : BitVec 16) (dirty : Bool) : State :=
  { s with dt := dt, st := st, keys := keys, dirty := dirty }

theorem imageWellFormed_iff (image : List Byte) : imageWellFormed image = true ↔ image.length ≤ 3584 := by
  simp only [imageWellFormed, decide_eq_true_eq, Config.progBase_eq, Config.memSize_eq]
  omega

theorem hostLoad_enabled {image : List Byte} {c d : Session} (h : c.apply (.hostLoad image) = .next d) :
    c.started = false ∧ image.length ≤ 3584 := by
  simp only [Session.apply] at h
  split at h
  · cases h
  case isFalse hfits =>
    split at h
    · cases h
    case isFalse hstarted =>
      exact ⟨by simpa using hstarted, (imageWellFormed_iff image).mp (by simpa using hfits)⟩

/-- An event resets, loads an image that fits before the first Step, steps, or writes timers, KEYS and DIRTY alone. -/
theorem Session.apply_cases {e : Event} {c d : Session} (h : c.apply e = .next d) :
    e = .reset ∧ d = ⟨hostReset c.core, false⟩ ∨
    (∃ image : List Byte, image.length ≤ 3584 ∧ c.started = false ∧ d = ⟨hostLoad image c.core, false⟩) ∨
    (e = .step ∧ step c.core = .next d.core ∧ d.started = true) ∨
    ∃ dt st keys dirty, d = ⟨c.core.withHostWrites dt st keys dirty, c.started⟩ := by
  cases e with
  | reset =>
    cases h
    exact .inl ⟨rfl, rfl⟩
  | hostLoad image =>
    obtain ⟨hstarted, hlength⟩ := hostLoad_enabled h
    exact .inr (.inl ⟨image, hlength, hstarted, Session.apply_hostLoad_next h⟩)
  | step =>
    simp only [Session.apply] at h
    split at h
    case h_1 hstep =>
      cases h
      exact .inr (.inr (.inl ⟨rfl, hstep, rfl⟩))
    all_goals cases h
  | hostSetKeys m =>
    cases h
    exact .inr (.inr (.inr ⟨_, _, _, _, congrArg (Session.mk · _) (hostSetKeys_eq m c.core)⟩))
  | hostClearDirty =>
    cases h
    exact .inr (.inr (.inr ⟨_, _, _, _, congrArg (Session.mk · _) (hostClearDirty_eq c.core)⟩))
  | tick =>
    cases h
    exact .inr (.inr (.inr ⟨_, _, _, _, congrArg (Session.mk · _) (tick_eq c.core)⟩))

/-! PC (10_state.md R25). -/

theorem addrWord_eq_ofNat (nnn : Addr12) : addrWord nnn = BitVec.ofNat 16 nnn.toNat := by
  apply BitVec.eq_of_toNat_eq
  have hnnn := nnn.isLt
  rw [toNat_addrWord, BitVec.toNat_ofNat]
  omega

theorem toNat_indexedTarget (nnn : Addr12) (v0 : Byte) : (indexedTarget nnn v0).toNat = nnn.toNat + v0.toNat := by
  have hnnn := nnn.isLt
  have hv0 := v0.isLt
  rw [indexedTarget, BitVec.toNat_add, BitVec.toNat_setWidth_of_le (by decide), BitVec.toNat_setWidth_of_le (by decide)]
  omega

theorem indexedTarget_eq_ofNat (nnn : Addr12) (v0 : Byte) :
    indexedTarget nnn v0 = BitVec.ofNat 16 (nnn.toNat + v0.toNat) := by
  apply BitVec.eq_of_toNat_eq
  have hnnn := nnn.isLt
  have hv0 := v0.isLt
  rw [toNat_indexedTarget, BitVec.toNat_ofNat]
  omega

theorem State.after_call {nnn : Addr12} {s : State} (room : s.sp.val < 24) :
    s.after (.call nnn) = (s.push (s.pc + 2#16) room).setPc (addrWord nnn) :=
  dif_pos room

theorem State.pc_after_call {nnn : Addr12} {s : State} (h : fatalCheck (.call nnn) s = none) :
    (s.after (.call nnn)).pc = addrWord nnn := by
  have hsp := s.sp.isLt
  have hfull : s.sp.val ≠ 24 := by simpa [fatalCheck] using h
  have room : s.sp.val < 24 := by omega
  rw [State.after_call room, State.setPc_pc]

theorem State.after_ldVxK_of_none {x : RegIdx} {s : State} (h : s.keys = 0#16) : s.after (.ldVxK x) = s := by
  rcases leastKey_spec s.keys with ⟨-, hnone⟩ | ⟨k, -, -, hk, -⟩
  · rw [State.after, hnone, Option.elim_none]
  · simp [h] at hk

theorem State.pc_after_ldVxK (x : RegIdx) (s : State) :
    (s.after (.ldVxK x)).pc = if s.keys = 0#16 then s.pc else s.pc + 2#16 := by
  by_cases hkeys : s.keys = 0#16
  · rw [if_pos hkeys, State.after_ldVxK_of_none hkeys]
  · rcases leastKey_spec s.keys with ⟨hzero, -⟩ | ⟨k, -, hsome, -⟩
    · exact absurd hzero hkeys
    · rw [if_neg hkeys, State.after, hsome]
      rfl

theorem State.pc_after_ldVxMem (x : RegIdx) (s : State) : (s.after (.ldVxMem x)).pc = s.pc + 2#16 := by
  rw [State.after, State.loadRegs_eq]
  rfl

/-- Settles O23: the handlers by their class; of the events beside Step and Reset none writes PC. -/
theorem pcUpdateFollowsClass : Obligations.PcUpdateFollowsClass := by
  refine ⟨fun i s t h hnone => ?handlers, fun w s => ⟨_, rfl, rfl⟩, fun e c d h hstep hreset => ?events⟩
  case handlers =>
    cases (exec_of_fatalCheck_none hnone).symm.trans h
    cases i with
    | jp nnn => exact addrWord_eq_ofNat nnn
    | call nnn => exact (State.pc_after_call hnone).trans (addrWord_eq_ofNat nnn)
    | jpV0 nnn => exact indexedTarget_eq_ofNat nnn _
    | ldVxK x => exact State.pc_after_ldVxK x s
    | ldVxMem x => exact State.pc_after_ldVxMem x s
    | seKk x kk | sneKk x kk => simp [State.after]
    | seReg x y | sneReg x y => simp [State.after]
    | skp x | sknp x => simp [State.after]
    | _ => rfl
  case events =>
    rcases Session.apply_cases h with ⟨he, -⟩ | ⟨image, -, -, rfl⟩ | ⟨he, -⟩ | ⟨dt, st, keys, dirty, rfl⟩
    · exact absurd he hreset
    · rfl
    · exact absurd he hstep
    · rfl

/-- Settles O24: the two stores by the frame; a load of an image needs a session that has not started. -/
theorem onlyBlockStoresWriteMemory : Obligations.OnlyBlockStoresWriteMemory := by
  refine ⟨fun i s t h hldB hldMem => ?handlers, fun e c d hstarted h hstep hreset => ?events⟩
  case handlers =>
    refine exec_same (p := .memory) h (fun hmem => ?_) (by decide)
    obtain ⟨x, hi⟩ | ⟨x, hi⟩ := memory_mem_writtenParts hmem
    · exact hldB x hi
    · exact hldMem x hi
  case events =>
    rcases Session.apply_cases h with ⟨he, -⟩ | ⟨image, -, hnew, -⟩ | ⟨he, -⟩ | ⟨dt, st, keys, dirty, rfl⟩
    · exact absurd he hreset
    · cases hstarted.symm.trans hnew
    · exact absurd he hstep
    · exact fun _ => rfl

end Sys2Proof.Machine
end

section
/-! PROOFS. The invariants of the state and of the FAULT record, over every Step and every event (10_state.md R26, R34,
R41). -/

namespace Sys2Proof.Machine

/-! All that a Step can answer. -/

theorem toNat_of_fetch_error {s : State} {a : Nat} (h : fetch s = .error a) : 4096 ≤ a ∧ a ≤ 0xFFFF := by
  have hpc := s.pc.isLt
  rcases fetch_spec s with ⟨-, hok⟩ | ⟨-, herr⟩ | ⟨hout, herr⟩
  · cases hok.symm.trans h
  · cases herr.symm.trans h
    decide
  · cases herr.symm.trans h
    omega

theorem pc_le_of_fetch_ok {s : State} {w : Word} (h : fetch s = .ok w) : s.pc.toNat ≤ 4094 := by
  rcases fetch_spec s with ⟨hin, -⟩ | ⟨-, herr⟩ | ⟨-, herr⟩
  · exact hin
  all_goals cases herr.symm.trans h

/-- A next state of a Step is a fatal fetch, or what the handler of a whole word at PC left. -/
theorem step_next_cases {s t : State} (h : step s = .next t) :
    s.fault = none ∧
      ((∃ a, 4096 ≤ a ∧ a ≤ 0xFFFF ∧ t = s.raiseFatal .memOutOfBounds 0 a) ∨
        s.pc.toNat ≤ 4094 ∧ ((∃ i, exec i s = .next t) ∨ ∃ w, t = (s.warn w).advance)) := by
  rcases stepWith_cases exec s with ⟨r, -, hstep⟩ |
    ⟨hrun, ⟨a, hfetch, hstep⟩ | ⟨w, i, hfetch, -, hstep⟩ | ⟨w, hfetch, -, hstep⟩⟩
  · cases hstep.symm.trans h
  · cases hstep.symm.trans h
    obtain ⟨hlow, hhigh⟩ := toNat_of_fetch_error hfetch
    exact ⟨hrun, .inl ⟨a, hlow, hhigh, rfl⟩⟩
  · exact ⟨hrun, .inr ⟨pc_le_of_fetch_ok hfetch, .inl ⟨i, hstep.symm.trans h⟩⟩⟩
  · cases hstep.symm.trans h
    exact ⟨hrun, .inr ⟨pc_le_of_fetch_ok hfetch, .inr ⟨w, rfl⟩⟩⟩

/-- Settles O10: the fatal fetch, the fatal handler, the handler and the warning all answer a next state. -/
theorem runningStepAlwaysCompletes : Obligations.RunningStepAlwaysCompletes := by
  intro s hrun
  rcases stepWith_cases exec s with ⟨r, hfault, -⟩ | ⟨-, ⟨a, -, hstep⟩ | ⟨w, i, -, -, hstep⟩ | ⟨w, -, -, hstep⟩⟩
  · cases hrun.symm.trans hfault
  · exact ⟨_, hstep⟩
  · rcases exec_cases i s with ⟨-, hexec⟩ | ⟨c, a, -, hexec⟩
    · exact ⟨_, hstep.trans hexec⟩
    · exact ⟨_, hstep.trans hexec⟩
  · exact ⟨_, hstep⟩

/-! The three parts of the invariant, over a handler that is not fatal. -/

theorem index_le_of_fatalCheck_ldBVx {x : RegIdx} {s : State} (h : fatalCheck (.ldBVx x) s = none) :
    s.i.toNat + 2 ≤ 4095 := by
  simpa [fatalCheck] using h

theorem index_le_of_fatalCheck_ldMemVx {x : RegIdx} {s : State} (h : fatalCheck (.ldMemVx x) s = none) :
    s.i.toNat + x.toNat ≤ 4095 := by
  simpa [fatalCheck] using h

theorem State.mem_after_call (s : State) (nnn : Addr12) : (s.after (.call nnn)).mem = s.mem := by
  simp only [State.after]
  split <;> rfl

theorem State.mem_after_ldVxK (s : State) (x : RegIdx) : (s.after (.ldVxK x)).mem = s.mem := by
  simp only [State.after]
  cases leastKey s.keys <;> rfl

theorem State.mem_after_ldVxMem (s : State) (x : RegIdx) : (s.after (.ldVxMem x)).mem = s.mem := by
  rw [State.after, State.loadRegs_eq]
  rfl

theorem State.wf_mem_after {s : State} {i : Instr} (hmem : s.mem.wf) (hnone : fatalCheck i s = none) :
    (s.after i).mem.wf := by
  cases i with
  | ldBVx x =>
    have hin := index_le_of_fatalCheck_ldBVx hnone
    exact Memory.wf_writeList hmem (by rw [length_decimalDigits]; omega)
  | ldMemVx x =>
    have hin := index_le_of_fatalCheck_ldMemVx hnone
    exact Memory.wf_writeList hmem (by rw [length_registerBlock]; omega)
  | call nnn => rwa [State.mem_after_call]
  | ldVxK x => rwa [State.mem_after_ldVxK]
  | ldVxMem x => rwa [State.mem_after_ldVxMem]
  | _ => exact hmem

theorem toNat_add_two {pc : Word} (h : pc.toNat ≤ 0x10FE) : (pc + 2#16).toNat = pc.toNat + 2 := by
  bv_omega

theorem toNat_add_four {pc : Word} (h : pc.toNat ≤ 0x10FE) : (pc + 4#16).toNat = pc.toNat + 4 := by
  bv_omega

theorem State.pc_skipIf_le {s : State} (h : s.pc.toNat ≤ 4094) (taken : Bool) : (s.skipIf taken).pc.toNat ≤ 0x10FE := by
  have htwo := toNat_add_two (pc := s.pc) (by omega)
  have hfour := toNat_add_four (pc := s.pc) (by omega)
  rw [State.skipIf_pc]
  split <;> omega

theorem State.pc_after_le {s : State} {i : Instr} (hpc : s.pc.toNat ≤ 4094)
    (hstack : ∀ (k : Nat) (h : k < 24), s.stack[k].toNat ≤ 4096) (hnone : fatalCheck i s = none) :
    (s.after i).pc.toNat ≤ 0x10FE := by
  have hnext : (s.pc + 2#16).toNat ≤ 0x10FE := by
    rw [toNat_add_two (by omega)]
    omega
  cases i with
  | jp nnn =>
    have htarget := toNat_addrWord nnn
    simp only [State.after, State.setPc_pc]
    omega
  | call nnn =>
    have htarget := toNat_addrWord nnn
    rw [State.pc_after_call hnone]
    omega
  | jpV0 nnn =>
    have htarget := toNat_indexedTarget nnn (s.reg 0)
    simp only [State.after, State.setPc_pc]
    omega
  | ret => exact (hstack _ _).trans (by decide)
  | seKk x kk | sneKk x kk => exact State.pc_skipIf_le hpc _
  | seReg x y | sneReg x y => exact State.pc_skipIf_le hpc _
  | skp x | sknp x => exact State.pc_skipIf_le hpc _
  | ldVxK x =>
    rw [State.pc_after_ldVxK]
    split <;> omega
  | ldVxMem x => rwa [State.pc_after_ldVxMem]
  | _ => exact hnext

theorem State.stack_after_call_le {s : State} {nnn : Addr12} (hpc : s.pc.toNat ≤ 4094)
    (hstack : ∀ (k : Nat) (h : k < 24), s.stack[k].toNat ≤ 4096) (k : Nat) (hk : k < 24) :
    (s.after (.call nnn)).stack[k].toNat ≤ 4096 := by
  have hpush := toNat_add_two (pc := s.pc) (by omega)
  by_cases room : s.sp.val < 24
  · simp only [State.after_call room, State.setPc_stack, State.push_stack, Vector.getElem_set]
    split
    · omega
    · exact hstack k hk
  · simp only [State.after, room, ↓reduceDIte]
    exact hstack k hk

theorem State.stack_after_le {s : State} {i : Instr} (hpc : s.pc.toNat ≤ 4094)
    (hstack : ∀ (k : Nat) (h : k < 24), s.stack[k].toNat ≤ 4096) (k : Nat) (hk : k < 24) :
    (s.after i).stack[k].toNat ≤ 4096 := by
  by_cases hcall : ∃ nnn, i = .call nnn
  · obtain ⟨nnn, rfl⟩ := hcall
    exact State.stack_after_call_le hpc hstack k hk
  · have hsame : (s.after i).stack = s.stack :=
      sameExcept_after s i .stack (fun hmem => hcall (stack_mem_writtenParts hmem))
    simpa only [hsame] using hstack k hk

/-! The invariant. -/

theorem State.Inv.raiseFatal {s : State} (hs : s.Inv) (c : Cause) (w : Word) (a : Nat) : (s.raiseFatal c w a).Inv :=
  ⟨hs.mem, hs.pc, hs.stack⟩

theorem State.Inv.exec {s t : State} {i : Instr} (hs : s.Inv) (hpc : s.pc.toNat ≤ 4094) (h : exec i s = .next t) :
    t.Inv := by
  rcases exec_next_cases h with ⟨hnone, rfl⟩ | ⟨c, a, -, rfl⟩
  · exact ⟨State.wf_mem_after hs.mem hnone, State.pc_after_le hpc hs.stack hnone, State.stack_after_le hpc hs.stack⟩
  · exact hs.raiseFatal c _ a

theorem State.Inv.step {s t : State} (hs : s.Inv) (h : step s = .next t) : t.Inv := by
  obtain ⟨-, ⟨a, -, -, rfl⟩ | ⟨hpc, ⟨i, hexec⟩ | ⟨w, rfl⟩⟩⟩ := step_next_cases h
  · exact hs.raiseFatal _ _ a
  · exact hs.exec hpc hexec
  · refine ⟨hs.mem, ?_, hs.stack⟩
    have hnext := toNat_add_two hs.pc
    simp only [State.advance_pc, State.warn_pc]
    omega

/-- Settles O13: a word is whole at PC only up to 4094, so a handler adds at most 4 to that. -/
theorem stepKeepsInvariant : Obligations.StepKeepsInvariant :=
  fun _ _ hs h => hs.step h

theorem State.Inv.reset : State.reset.Inv where
  mem := reset_mem_wf
  pc := by decide
  stack k h := by simp [State.reset]

theorem State.Inv.hostLoad {s : State} (hs : s.Inv) {image : List Byte} (h : image.length ≤ 3584) :
    (hostLoad image s).Inv where
  mem := Memory.wf_writeList hs.mem (by simp only [Config.progBase_eq]; omega)
  pc := hs.pc
  stack := hs.stack

/-- Settles O14: Reset establishes the invariant, an image that fits keeps memory canonical, a Step keeps it. -/
theorem eventsKeepInvariant : Obligations.EventsKeepInvariant := by
  intro e c d hc h
  rcases Session.apply_cases h with ⟨-, rfl⟩ | ⟨image, hfits, -, rfl⟩ | ⟨-, hstep, -⟩ | ⟨dt, st, keys, dirty, rfl⟩
  · exact ⟨State.Inv.reset.mem, State.Inv.reset.pc, State.Inv.reset.stack⟩
  · exact hc.hostLoad hfits
  · exact hc.step hstep
  · exact ⟨hc.mem, hc.pc, hc.stack⟩

/-! The FAULT record. -/

theorem State.FaultInv.of_running {s : State} (h : s.fault = none) : s.FaultInv := by
  constructor <;> (intro r hr; cases h.symm.trans hr)

/-- The record speaks of FAULT, PC and SP alone. -/
theorem State.FaultInv.of_eq {s t : State} (hs : s.FaultInv) (hfault : t.fault = s.fault) (hpc : t.pc = s.pc)
    (hsp : t.sp = s.sp) : t.FaultInv where
  pc r hr := hpc ▸ hs.pc r (hfault ▸ hr)
  overflow r hr := hsp ▸ hs.overflow r (hfault ▸ hr)
  underflow r hr := hsp ▸ hs.underflow r (hfault ▸ hr)
  bounds r hr := hs.bounds r (hfault ▸ hr)

theorem State.FaultInv.raiseFatal_memOutOfBounds {a : Nat} (hlow : 4096 ≤ a) (hhigh : a ≤ 0xFFFF) (s : State)
    (w : Word) : (s.raiseFatal .memOutOfBounds w a).FaultInv := by
  constructor <;> (intro r hr; cases hr)
  · rfl
  · intro hcause; cases hcause
  · intro hcause; cases hcause
  · intro _
    rw [BitVec.toNat_ofNat]
    omega

theorem State.FaultInv.raiseFatal_stackOverflow {s : State} (h : s.sp.val = 24) (w : Word) :
    (s.raiseFatal .stackOverflow w 24).FaultInv := by
  constructor <;> (intro r hr; cases hr)
  · rfl
  · exact fun _ => ⟨h, rfl⟩
  · intro hcause; cases hcause
  · intro hcause; cases hcause

theorem State.FaultInv.raiseFatal_stackUnderflow {s : State} (h : s.sp.val = 0) :
    (s.raiseFatal .stackUnderflow (encode .ret) 0).FaultInv := by
  constructor <;> (intro r hr; cases hr)
  · rfl
  · intro hcause; cases hcause
  · exact fun _ => ⟨h, rfl, rfl⟩
  · intro hcause; cases hcause

/-- What each row of the cause table records is true. -/
theorem State.FaultInv.of_fatalCheck {i : Instr} {s : State} {c : Cause} {a : Nat}
    (h : fatalCheck i s = some (c, a)) : (s.raiseFatal c (encode i) a).FaultInv := by
  have hi := s.i.isLt
  have hlow : 4096 ≤ max s.i.toNat 4096 := Nat.le_max_right _ _
  have hhigh : max s.i.toNat 4096 ≤ 0xFFFF := by omega
  cases i with
  | call nnn =>
    obtain ⟨hfull, hrow⟩ := Option.ite_none_right_eq_some.mp h
    cases hrow
    exact raiseFatal_stackOverflow hfull _
  | ret =>
    obtain ⟨hempty, hrow⟩ := Option.ite_none_right_eq_some.mp h
    cases hrow
    exact raiseFatal_stackUnderflow hempty
  | drw x y n | ldBVx x | ldMemVx x | ldVxMem x =>
    obtain ⟨-, hrow⟩ := Option.ite_none_right_eq_some.mp h
    cases hrow
    exact raiseFatal_memOutOfBounds hlow hhigh s _
  | _ => cases h

theorem State.FaultInv.step {s t : State} (h : step s = .next t) : t.FaultInv := by
  obtain ⟨hrun, ⟨a, hlow, hhigh, rfl⟩ | ⟨-, ⟨i, hexec⟩ | ⟨w, rfl⟩⟩⟩ := step_next_cases h
  · exact raiseFatal_memOutOfBounds hlow hhigh s 0
  · rcases exec_next_cases hexec with ⟨-, rfl⟩ | ⟨c, a, hfatal, rfl⟩
    · exact of_running ((State.after_fault s i).trans hrun)
    · exact of_fatalCheck hfatal
  · exact of_running hrun

/-- Settles O15: Reset clears FAULT, a Step sets it truly or not at all, the host's writes leave FAULT, PC and SP
alone. -/
theorem eventsKeepFaultRecordTrue : Obligations.EventsKeepFaultRecordTrue := by
  intro e c d hc h
  rcases Session.apply_cases h with ⟨-, rfl⟩ | ⟨image, -, -, rfl⟩ | ⟨-, hstep, -⟩ | ⟨dt, st, keys, dirty, rfl⟩
  · exact .of_running rfl
  · exact hc.of_eq rfl rfl rfl
  · exact .step hstep
  · exact hc.of_eq rfl rfl rfl

/-- Settles O12: memory is empty, PC is 0x200, the stack is zero, FAULT is clear. -/
theorem resetMeetsInvariants : Obligations.ResetMeetsInvariants :=
  ⟨State.Inv.reset, .of_running rfl⟩

/-! Reachable sessions. -/

/-- What holds at creation and is kept by every event holds of every reachable session. -/
theorem Session.Reachable.induct {P : Session → Prop} (initial : P Session.initial)
    (event : ∀ (e : Event) (c d : Session), P c → c.apply e = .next d → P d) {c : Session} (hc : c.Reachable) :
    P c := by
  induction hc with
  | initial => exact initial
  | event e _ h ih => exact event e _ _ ih h

/-- Settles O16: from the two invariants, since PC is at most 0x10FE. -/
theorem reachableSessionsNeverWrapPc : Obligations.ReachableSessionsNeverWrapPc := by
  intro c hc
  have hinv : c.core.Inv := hc.induct State.Inv.reset eventsKeepInvariant
  have hfault : c.core.FaultInv := hc.induct (P := (·.core.FaultInv)) (.of_running rfl) eventsKeepFaultRecordTrue
  exact ⟨hinv, hfault, toNat_add_two hinv.pc, toNat_add_four hinv.pc⟩

theorem Session.StoppedHasStarted.apply {e : Event} {c d : Session} (hc : c.StoppedHasStarted)
    (h : c.apply e = .next d) : d.StoppedHasStarted := by
  rcases Session.apply_cases h with ⟨-, rfl⟩ | ⟨image, -, hnew, rfl⟩ | ⟨-, -, hstarted⟩ | ⟨dt, st, keys, dirty, rfl⟩
  · exact fun hstopped => absurd rfl hstopped
  · exact fun hstopped => hnew.symm.trans (hc hstopped)
  · exact fun _ => hstarted
  · exact hc

/-- Settles O56: a Step sets the bit, Reset clears FAULT with it, a load needs a running core that has not started. -/
theorem faultedSessionHasStarted : Obligations.FaultedSessionHasStarted := by
  have hinitial : Session.initial.StoppedHasStarted := fun hstopped => absurd rfl hstopped
  have hevent : ∀ (e : Event) (c d : Session), c.StoppedHasStarted → c.apply e = .next d → d.StoppedHasStarted :=
    fun _ _ _ hc h => Session.StoppedHasStarted.apply hc h
  exact ⟨hinitial, hevent, fun c hc => hc.induct hinitial hevent⟩

end Sys2Proof.Machine
end

section
/-! PROOFS. The collision of DRW, DRW as a whole, and two draws of one sprite (40_display.md R121 to R123). -/

namespace Sys2Proof.Machine

/-! The collision: no pixel is covered twice, so a pixel found set was set before the instruction. -/

theorem collision_drawCols_iff (vx py : Nat) (b : Byte) {k : Nat} (hk : k ≤ 8) (acc : DrawAcc) :
    (drawCols vx py b k acc).collision = true ↔
      acc.collision = true ∨ ∃ col < k, b.getLsbD (7 - col) = true ∧ acc.disp.pixel (vx + col) py = true := by
  induction k with
  | zero => simp [drawCols]
  | succ k ih =>
    have huntouched : (drawCols vx py b k acc).disp.pixel (vx + k) py = acc.disp.pixel (vx + k) py := by
      by_contra hne
      obtain ⟨col, hcol, -, hx, -⟩ := (pixel_drawCols_ne_iff vx py b (by omega) acc _ _).mp hne
      omega
    rw [Nat.exists_lt_succ_right, drawCols, ← or_assoc, ← ih (by omega)]
    by_cases hbit : b.getLsbD (7 - k) = true
    · simp [hbit, drawBit, huntouched]
    · simp [hbit]

theorem collision_drawRows_iff (vx py : Nat) {n : Nat} (hn : n ≤ 32) (f : Nat → Byte) (acc : DrawAcc) :
    (drawRows vx py ((List.range n).map f) acc).collision = true ↔
      acc.collision = true ∨ ∃ row < n, ∃ col < 8, (f row).getLsbD (7 - col) = true ∧
        acc.disp.pixel (vx + col) (py + row) = true := by
  induction n generalizing py f acc with
  | zero => simp [drawRows_nil]
  | succ n ih =>
    have huntouched : ∀ row < n, ∀ col, (drawCols vx py (f 0) 8 acc).disp.pixel (vx + col) (py + (row + 1)) =
        acc.disp.pixel (vx + col) (py + (row + 1)) := by
      intro row hrow col
      by_contra hne
      obtain ⟨col', -, -, -, hy⟩ := (pixel_drawCols_ne_iff vx py (f 0) (Nat.le_refl 8) acc _ _).mp hne
      omega
    rw [drawRows_map_range_succ, Nat.exists_lt_succ_left, ih _ (by omega), drawRow_eq_drawCols,
      collision_drawCols_iff _ _ _ (Nat.le_refl 8), or_assoc]
    refine or_congr_right (or_congr_right (exists_congr fun row => and_congr_right fun hrow => ?_))
    simp only [Nat.add_assoc, Nat.add_comm 1, huntouched row hrow]

theorem collision_drawResult_iff (s : State) (x y : RegIdx) (n : Nibble) :
    (drawResult s x y n).collision = true ↔ spriteCollides s x y n := by
  have hn := n.isLt
  simp [drawResult, collision_drawRows_iff _ _ (show n.toNat ≤ 32 by omega), spriteCollides, spriteBit,
    Display.pixel_mod]

/-! DRW as a whole. -/

theorem pixel_afterDraw_ne_iff (s : State) (x y : RegIdx) (n : Nibble) {px py : Nat} (hx : px < 64) (hy : py < 32) :
    (s.afterDraw x y n).disp.pixel px py ≠ s.disp.pixel px py ↔ spriteCovers s x y n px py := by
  have hcovers := pixel_drawResult_ne_iff s x y n px py
  rwa [Nat.mod_eq_of_lt hx, Nat.mod_eq_of_lt hy] at hcovers

theorem State.reg_afterDraw_of_ne (s : State) (x y : RegIdx) (n : Nibble) {z : RegIdx} (hz : z ≠ 0xF#4) :
    (s.afterDraw x y n).reg z = s.reg z :=
  State.reg_setReg_ne _ _ hz

/-- Settles O26: the pixels, the collision and the toggle by what the draw loop leaves. -/
theorem drawTogglesCoveredPixels : Obligations.DrawTogglesCoveredPixels := by
  refine fun x y n s hin => ⟨s.afterDraw x y n, exec_drw_inside hin,
    fun px hx py hy => pixel_afterDraw_ne_iff s x y n hx hy, fun hcoll => ?collides, fun hfree => ?free, ?dirty, fun z hz => State.reg_afterDraw_of_ne s x y n hz, rfl,
    sameExcept_afterDraw s x y n⟩
  case collides =>
    rw [State.reg_flag_afterDraw, (collision_drawResult_iff s x y n).mpr hcoll]
    rfl
  case free =>
    have hfalse : (drawResult s x y n).collision = false :=
      Bool.eq_false_of_not_eq_true fun h => hfree ((collision_drawResult_iff s x y n).mp h)
    rw [State.reg_flag_afterDraw, hfalse]
    rfl
  case dirty =>
    rw [← toggled_drawResult_iff, ← Bool.or_eq_true]
    rfl

/-! Two draws of one sprite. -/

/-- With neither coordinate in VF, the second draw finds the sprite and the coordinates of the first. -/
theorem spriteCovers_afterDraw {s : State} {x y : RegIdx} {n : Nibble} (hx : x ≠ 0xF#4) (hy : y ≠ 0xF#4) (px py : Nat) :
    spriteCovers (s.afterDraw x y n) x y n px py ↔ spriteCovers s x y n px py := by
  simp only [spriteCovers, State.reg_afterDraw_of_ne s x y n hx, State.reg_afterDraw_of_ne s x y n hy]
  rfl

theorem disp_afterDraw_afterDraw {s : State} {x y : RegIdx} {n : Nibble} (hx : x ≠ 0xF#4) (hy : y ≠ 0xF#4) :
    ((s.afterDraw x y n).afterDraw x y n).disp = s.disp := by
  refine Display.ext_pixel fun px hpx py hpy => ?_
  have hfirst := pixel_afterDraw_ne_iff s x y n hpx hpy
  have hsecond := pixel_afterDraw_ne_iff (s.afterDraw x y n) x y n hpx hpy
  rw [spriteCovers_afterDraw hx hy, ← hfirst] at hsecond
  revert hsecond
  cases s.disp.pixel px py <;> cases (s.afterDraw x y n).disp.pixel px py <;> simp

/-- A display collides with a sprite when one of the pixels the sprite covers is set. -/
theorem spriteCollides_iff_covers (s : State) (x y : RegIdx) (n : Nibble) :
    spriteCollides s x y n ↔ ∃ px < 64, ∃ py < 32, spriteCovers s x y n px py ∧ s.disp.pixel px py = true := by
  constructor
  · rintro ⟨row, hrow, col, hcol, hbit, hset⟩
    exact ⟨_, Nat.mod_lt _ (by decide), _, Nat.mod_lt _ (by decide), ⟨row, hrow, col, hcol, hbit, rfl, rfl⟩, hset⟩
  · rintro ⟨px, -, py, -, ⟨row, hrow, col, hcol, hbit, rfl, rfl⟩, hset⟩
    exact ⟨row, hrow, col, hcol, hbit, hset⟩

theorem flagByte_eq_one_iff (b : Bool) : flagByte b = 1#8 ↔ b = true := by
  cases b <;> decide

/-- Settles O27: both draws flip the same pixels, and the second collides where the first turned a pixel on. -/
theorem drawTwiceRestoresDisplay : Obligations.DrawTwiceRestoresDisplay := by
  intro x y n s t hx hy hin h
  cases (exec_drw_inside hin).symm.trans h
  refine ⟨_, exec_drw_inside (s := s.afterDraw x y n) hin, disp_afterDraw_afterDraw hx hy, ?_⟩
  rw [State.reg_flag_afterDraw, flagByte_eq_one_iff, collision_drawResult_iff, spriteCollides_iff_covers]
  refine exists_congr fun px => and_congr_right fun hpx => exists_congr fun py => and_congr_right fun hpy => ?_
  rw [spriteCovers_afterDraw hx hy, ← pixel_afterDraw_ne_iff s x y n hpx hpy]
  cases s.disp.pixel px py <;> cases (s.afterDraw x y n).disp.pixel px py <;> simp

end Sys2Proof.Machine
end

section
/-! PROOFS. Memory: the primitives, blocks byte by byte, the canonical form, stores read back and fetched, and the Step
over the bytes at PC (20_memory.md, 45_memory_transfer.md). -/

namespace Sys2Proof.Machine

/-! The primitives and the block operations. -/

theorem memRead_memWrite {s : State} {a : Nat} {v : Byte} (ha : a ≤ 4095) (b : Nat) :
    memRead (s.setMem (s.mem.write a v)) b = if b = a then .ok v else memRead s b := by
  by_cases hb : b < 4096
  · rw [memRead_ok hb, memRead_ok hb, State.setMem_mem, Memory.read_write]
    split <;> rfl
  · rw [memRead_error (by omega), memRead_error (by omega), if_neg (by omega)]

/-- Settles O48: by the bound. -/
theorem memoryPrimitivesCheckBounds : Obligations.MemoryPrimitivesCheckBounds := by
  refine fun s a v => ⟨fun hout => ⟨memRead_error hout, memWrite_error hout⟩, fun hin => ⟨memRead_ok (by omega), ?_⟩⟩
  exact ⟨_, memWrite_ok (by omega), sameExcept_setMem s _, rfl, memRead_memWrite hin⟩

theorem readEach_ok {s : State} {a n : Nat} (h : n = 0 ∨ a + n ≤ 4096) :
    readEach s a n = .ok ((List.range n).map (fun k => s.mem.read (a + k))) := by
  induction n generalizing a with
  | zero => rfl
  | succ n ih =>
    rw [readEach, memRead_ok (by omega), ih (by omega), List.range_succ_eq_map]
    simp [Nat.add_assoc, Nat.add_comm 1]

theorem readEach_error {s : State} {a n : Nat} (hn : n ≠ 0) (h : 4096 < a + n) :
    readEach s a n = .error (max a 4096) := by
  induction n generalizing a with
  | zero => exact absurd rfl hn
  | succ n ih =>
    by_cases ha : a < 4096
    · rw [readEach, memRead_ok ha, ih (by omega) (by omega), Nat.max_eq_right (by omega), Nat.max_eq_right (by omega)]
    · rw [readEach, memRead_error (by omega), Nat.max_eq_left (by omega)]

theorem writeEach_ok {s : State} {a : Nat} {vs : List Byte} (h : vs.length = 0 ∨ a + vs.length ≤ 4096) :
    writeEach s a vs = .ok (s.setMem (s.mem.writeList a vs)) := by
  induction vs generalizing s a with
  | nil => rfl
  | cons v vs ih =>
    rw [List.length_cons] at h
    rw [writeEach, memWrite_ok (by omega)]
    exact ih (by omega)

theorem writeEach_error {s : State} {a : Nat} {vs : List Byte} (hn : vs.length ≠ 0) (h : 4096 < a + vs.length) :
    writeEach s a vs = .error (max a 4096) := by
  induction vs generalizing s a with
  | nil => exact absurd rfl hn
  | cons v vs ih =>
    rw [List.length_cons] at h
    by_cases ha : a < 4096
    · rw [writeEach, memWrite_ok ha, Nat.max_eq_right (by omega)]
      exact (ih (by omega) (by omega)).trans (congrArg Except.error (Nat.max_eq_right (by omega)))
    · rw [writeEach, memWrite_error (by omega), Nat.max_eq_left (by omega)]

/-- Settles O49: both ways answer the same inside memory and past its end. -/
theorem blockAccessIsByteByByte : Obligations.BlockAccessIsByteByByte := by
  refine ⟨fun s a n => ?_, fun s a vs => ?_⟩
  · rcases memReadBlock_spec s a n with ⟨hin, h⟩ | ⟨⟨hn, hout⟩, h⟩
    · rw [h, readEach_ok hin]
    · rw [h, readEach_error hn hout]
  · rcases memWriteBlock_spec s a vs with ⟨hin, h⟩ | ⟨⟨hn, hout⟩, h⟩
    · rw [h, writeEach_ok hin]
    · rw [h, writeEach_error hn hout]

/-! The canonical form. -/

theorem Memory.read_of_forall_lt {m : Memory} {a : Nat} (h : ∀ p ∈ m, a < p.1) : Memory.read m a = 0 := by
  induction m with
  | nil => rfl
  | cons c m ih =>
    obtain ⟨b, w⟩ := c
    have hb : a < b := h (b, w) (List.mem_cons_self ..)
    rw [Memory.read_cons, if_neg (by omega), ih fun p hp => h p (List.mem_cons_of_mem _ hp)]

theorem Memory.wf_cons {c : Host.Cell} {m : Memory} (h : Memory.wf (c :: m)) :
    (∀ p ∈ m, c.1 < p.1) ∧ c.2 ≠ 0 ∧ m.wf := by
  obtain ⟨hsorted, hcells⟩ := h
  obtain ⟨hfirst, hsorted⟩ := List.pairwise_cons.mp hsorted
  obtain ⟨⟨-, hne⟩, hcells⟩ := List.forall_mem_cons.mp hcells
  exact ⟨hfirst, hne, hsorted, hcells⟩

/-- Of two canonical memories that read the same, neither begins at a later address than the other. -/
theorem Memory.head_address_le {c c' : Host.Cell} {m m' : Memory} (h : Memory.wf (c :: m)) (h' : Memory.wf (c' :: m'))
    (hread : ∀ a, Memory.read (c :: m) a = Memory.read (c' :: m') a) : c'.1 ≤ c.1 := by
  obtain ⟨b, w⟩ := c
  obtain ⟨hfirst', -, -⟩ := Memory.wf_cons h'
  obtain ⟨-, hw, -⟩ := Memory.wf_cons h
  by_contra hlt
  have hzero : Memory.read (c' :: m') b = 0 := by
    refine Memory.read_of_forall_lt (List.forall_mem_cons.mpr ⟨by omega, fun p hp => ?_⟩)
    have hp := hfirst' p hp
    omega
  rw [← hread, Memory.read_cons, if_pos rfl] at hzero
  exact hw hzero

theorem Memory.eq_of_wf_of_read {m m' : Memory} (h : m.wf) (h' : m'.wf) (hread : ∀ a, m.read a = m'.read a) :
    m = m' := by
  induction m generalizing m' with
  | nil =>
    cases m' with
    | nil => rfl
    | cons c' m' =>
      obtain ⟨b', w'⟩ := c'
      obtain ⟨-, hw', -⟩ := Memory.wf_cons h'
      have hb' := hread b'
      rw [Memory.read_cons, if_pos rfl] at hb'
      exact absurd hb'.symm hw'
  | cons c m ih =>
    cases m' with
    | nil =>
      obtain ⟨b, w⟩ := c
      obtain ⟨-, hw, -⟩ := Memory.wf_cons h
      have hb := hread b
      rw [Memory.read_cons, if_pos rfl] at hb
      exact absurd hb hw
    | cons c' m' =>
      have hle := Memory.head_address_le h h' hread
      have hge := Memory.head_address_le h' h fun a => (hread a).symm
      obtain ⟨b, w⟩ := c
      obtain ⟨b', w'⟩ := c'
      obtain rfl : b = b' := Nat.le_antisymm hge hle
      obtain ⟨hfirst, -, hm⟩ := Memory.wf_cons h
      obtain ⟨hfirst', -, hm'⟩ := Memory.wf_cons h'
      have hbyte := hread b
      rw [Memory.read_cons, Memory.read_cons, if_pos rfl, if_pos rfl] at hbyte
      have hrest : m = m' := by
        refine ih hm hm' fun a => ?_
        by_cases ha : a = b
        · subst ha
          rw [Memory.read_of_forall_lt hfirst, Memory.read_of_forall_lt hfirst']
        · simpa only [Memory.read_cons, if_neg ha] using hread a
      rw [hbyte, hrest]

/-- Settles O50: the least address that reads other than 0 is the first in both, then the rest. -/
theorem canonicalMemoriesWithSameBytesAreEqual : Obligations.CanonicalMemoriesWithSameBytesAreEqual :=
  fun _ _ h h' hread => Memory.eq_of_wf_of_read h h' hread

/-! What the stores leave (45_memory_transfer.md R180, R181). -/

theorem exec_ldMemVx_inside {x : RegIdx} {s : State} (h : s.i.toNat + x.toNat ≤ 4095) :
    exec (.ldMemVx x) s = .next (s.after (.ldMemVx x)) :=
  exec_of_fatalCheck_none (if_neg (by omega))

theorem exec_ldVxMem_inside {x : RegIdx} {s : State} (h : s.i.toNat + x.toNat ≤ 4095) :
    exec (.ldVxMem x) s = .next (s.after (.ldVxMem x)) :=
  exec_of_fatalCheck_none (if_neg (by omega))

theorem exec_ldBVx_inside {x : RegIdx} {s : State} (h : s.i.toNat + 2 ≤ 4095) :
    exec (.ldBVx x) s = .next (s.after (.ldBVx x)) :=
  exec_of_fatalCheck_none (if_neg (by omega))

theorem State.read_after_ldMemVx (s : State) (x : RegIdx) (a : Nat) :
    (s.after (.ldMemVx x)).mem.read a = byteAfterBlockStore s x a := by
  simp only [State.after, State.advance_mem, State.setMem_mem, Memory.read_writeList, length_registerBlock,
    getElem_registerBlock, byteAfterBlockStore, ← Nat.add_assoc, Nat.lt_succ_iff]
  rfl

theorem State.read_after_ldBVx (s : State) (x : RegIdx) (a : Nat) :
    (s.after (.ldBVx x)).mem.read a = byteAfterDecimalStore s x a := by
  simp only [State.after, State.advance_mem, State.setMem_mem, decimalDigits, Memory.writeList, Memory.read_write,
    Nat.add_assoc, Nat.reduceAdd, byteAfterDecimalStore]
  by_cases hundreds : a = s.i.toNat
  · simp [hundreds]
  · by_cases htens : a = s.i.toNat + 1
    · simp [htens]
    · simp [hundreds, htens]

theorem byteAfterBlockStore_register {s : State} {x z : RegIdx} (h : z.toNat ≤ x.toNat) :
    byteAfterBlockStore s x (s.i.toNat + z.toNat) = s.reg z := by
  rw [byteAfterBlockStore, if_pos (by omega), Nat.add_sub_cancel_left, BitVec.ofNat_toNat, BitVec.setWidth_eq]

/-- Settles O47: the load reads from I upwards what the store left there. -/
theorem storeThenLoadRestoresRegisters : Obligations.StoreThenLoadRestoresRegisters := by
  intro x s t u hin h hindex hmem
  cases (exec_ldMemVx_inside hin).symm.trans h
  refine ⟨_, exec_ldVxMem_inside (s := u) (by rw [hindex]; exact hin), fun z hz => ?_⟩
  rw [State.reg_after_ldVxMem, if_pos hz, hmem, hindex, State.read_after_ldMemVx, byteAfterBlockStore_register hz]

/-- Settles O57: the Step runs the word of the two bytes at PC, each the one the store left. -/
theorem storedBytesAreFetched : Obligations.StoredBytesAreFetched := by
  refine ⟨fun x s t u hin h hrun hpc hhi hlo => ?block, fun x s t u hin h hrun hpc hhi hlo => ?decimal⟩
  case block =>
    cases (exec_ldMemVx_inside hin).symm.trans h
    rw [step_eq_runWord hrun hpc, hhi, hlo, State.read_after_ldMemVx, State.read_after_ldMemVx]
    rfl
  case decimal =>
    cases (exec_ldBVx_inside hin).symm.trans h
    rw [step_eq_runWord hrun hpc, hhi, hlo, State.read_after_ldBVx, State.read_after_ldBVx]
    rfl

/-! The Step over the bytes at PC. -/

/-- Settles O5: the Step over the bytes of a recognized word. -/
theorem stepRunsDecodedInstruction : Obligations.StepRunsDecodedInstruction :=
  fun _ _ hrun hpc hdec => step_eq_exec hrun hpc rfl rfl hdec

theorem decode_of_not_recognized {w : Word} (h : ∀ i, decode w ≠ .recognized i) : decode w = .unrecognized w := by
  cases hdec : decode w with
  | recognized i => exact absurd hdec (h i)
  | unrecognized u => rw [decode_unrecognized hdec]

theorem runWord_of_unrecognized {w : Word} (h : decode w = .unrecognized w) (s : State) :
    runWord w s = execUnrecognized w s := by
  rw [runWord, h]

/-- Settles O7: the Step runs the unrecognized handler on the word of the two bytes at PC. -/
theorem stepSkipsUnrecognizedWord : Obligations.StepSkipsUnrecognizedWord := by
  rintro s w hrun hpc rfl hunrec
  have hstep := (step_eq_runWord hrun hpc).trans (runWord_of_unrecognized (decode_of_not_recognized hunrec) s)
  exact ⟨_, hstep, rfl, rfl, sameExcept_advance (sameExcept_warn s _)⟩

/-- Settles O8: the fetch fails at PC, or at PC + 1 when PC is 4095. -/
theorem fetchOutOfRangeIsFatal : Obligations.FetchOutOfRangeIsFatal := by
  intro s hrun hpc
  have hfetch : fetch s = .error (if 4095 < s.pc.toNat then s.pc.toNat else 4096) := by
    rcases fetch_spec s with ⟨hin, -⟩ | ⟨heq, h⟩ | ⟨hout, h⟩
    · omega
    · rw [h, if_neg (by omega)]
    · rw [h, if_pos (by omega)]
  have hstep : step s = .next (s.raiseFatal .memOutOfBounds 0 (if 4095 < s.pc.toNat then s.pc.toNat else 4096)) := by
    simp only [step, stepWith, hrun, hfetch]
  refine ⟨_, _, hstep, rfl, rfl, rfl, rfl, ?_, rfl, sameExcept_raiseFatal s _ _ _⟩
  have hlt := s.pc.isLt
  rw [BitVec.toNat_ofNat]
  split <;> omega

theorem tableBytes_toNat (w : Word) : tableBytes 16 w.toNat = [w.extractLsb' 8 8, w.extractLsb' 0 8] := by
  rw [tableBytes, Nat.mod_eq_of_lt w.isLt, BitVec.ofNat_toNat, BitVec.setWidth_eq, wordBytes]

/-- Below 4095 both bytes of the word are placed. -/
theorem State.withFetchWord_eq {s : State} (hpc : s.pc.toNat ≤ 4094) (w : Word) :
    s.withFetchWord 16 w.toNat =
      s.setMem ((s.mem.write s.pc.toNat (w.extractLsb' 8 8)).write (s.pc.toNat + 1) (w.extractLsb' 0 8)) := by
  have hhi : s.pc.toNat < Config.memSize := by simp only [Config.memSize_eq]; omega
  have hlo : s.pc.toNat + 1 < Config.memSize := by simp only [Config.memSize_eq]; omega
  simp only [State.withFetchWord, tableBytes_toNat, placeBytes, if_pos hhi, if_pos hlo]

/-- Settles O6: the two bytes placed at PC join to the word. -/
theorem storedWordRunsNext : Obligations.StoredWordRunsNext := by
  intro s w hrun hpc
  rw [State.withFetchWord_eq hpc]
  refine ⟨?runs, fun a hhi hlo => ?frame⟩
  case runs =>
    refine (step_eq_runWord (by exact hrun) (by exact hpc)).trans ?_
    simp [Memory.read_write, joinBytes_wordBytes]
  case frame => simp [Memory.read_write, hhi, hlo]

end Sys2Proof.Machine
end

section
/-! PROOFS. Return, jumps, call and the conditional skips (41_control_flow.md R130 to R138, 44_keyboard_timers.md R170,
R171). -/

namespace Sys2Proof.Machine

/-- A row of the cause table is the fatal outcome: FAULT is written with it, and nothing else. -/
theorem exists_next_of_fatalCheck_some {i : Instr} {s : State} {c : Cause} {a : Nat}
    (h : fatalCheck i s = some (c, a)) :
    ∃ t, exec i s = .next t ∧ t.fault = some ⟨c, s.pc, encode i, BitVec.ofNat 17 a⟩ ∧ t.pc = s.pc ∧
      sameExcept [.fault] s t :=
  ⟨_, exec_of_fatalCheck_some h, rfl, rfl, sameExcept_raiseFatal s c _ a⟩

/-! RET and CALL. -/

theorem exec_ret_of_pos {s : State} (h : 0 < s.sp.val) : exec .ret s = .next (s.pop.setPc s.top) :=
  exec_of_fatalCheck_none (if_neg (by omega))

theorem exec_call_of_room {nnn : Addr12} {s : State} (room : s.sp.val < 24) :
    exec (.call nnn) s = .next ((s.push (s.pc + 2#16) room).setPc (addrWord nnn)) :=
  (exec_of_fatalCheck_none (i := .call nnn) (if_neg (Nat.ne_of_lt room))).trans (congrArg _ (State.after_call room))

theorem State.val_sp_pop (s : State) : s.pop.sp.val = s.sp.val - 1 := rfl

theorem State.top_eq_getElem {s : State} {k : Nat} (hk : k < 24) (h : s.sp.val = k + 1) : s.top = s.stack[k] := by
  simp only [State.top, h, Nat.add_sub_cancel]

/-- Settles O28: the entry below SP, or the cause table's row for an empty stack. -/
theorem returnPopsResumeAddress : Obligations.ReturnPopsResumeAddress := by
  refine ⟨fun s k hk h => ?pops, fun s h => exists_next_of_fatalCheck_some (if_pos h)⟩
  have hsp : (s.pop.setPc s.top).sp.val = k := (State.val_sp_pop s).trans (by omega)
  exact ⟨_, exec_ret_of_pos (by omega), hsp, State.top_eq_getElem hk h, sameExcept_after s .ret⟩

theorem State.getElem_stack_push (s : State) (w : Word) (room : s.sp.val < 24) (k : Nat) (hk : k < 24) :
    (s.push w room).stack[k] = if k = s.sp.val then w else s.stack[k] := by
  simp only [State.push_stack, Vector.getElem_set, eq_comm (a := k)]

/-- Settles O30: the push at SP, or the cause table's row for a full stack. -/
theorem callPushesReturnAddress : Obligations.CallPushesReturnAddress := by
  refine ⟨fun nnn s room => ?pushes, fun nnn s h => exists_next_of_fatalCheck_some (if_pos h)⟩
  exact ⟨_, exec_call_of_room room, State.getElem_stack_push s _ room, rfl, toNat_addrWord nnn,
    sameExcept_trans (sameExcept_push s _ room) (sameExcept_mono (sameExcept_setPc _ _) (by simp))⟩

/-- Settles O31: RET finds the pushed PC + 2 as the entry below SP. -/
theorem callThenReturnResumes : Obligations.CallThenReturnResumes := by
  intro nnn s t u room h hsp hstack
  cases (exec_call_of_room room).symm.trans h
  have hsp' : u.sp.val = s.sp.val + 1 := congrArg Fin.val hsp
  refine ⟨_, exec_ret_of_pos (by omega), ?pc, Fin.ext ?sp⟩
  case pc =>
    rw [State.setPc_pc, State.top_eq_getElem room hsp', hstack _ room rfl, State.setPc_stack, State.push_stack,
      Vector.getElem_set_self]
  case sp => exact (State.val_sp_pop u).trans (by omega)

/-! Jumps and skips. -/

/-- Settles O29: by the words of format A and the two targets. -/
theorem jumpsGoToTarget : Obligations.JumpsGoToTarget :=
  ⟨fun nnn => ⟨decode_encode (.jp nnn), decode_encode (.jpV0 nnn)⟩,
    fun nnn s => ⟨_, exec_jp nnn s, toNat_addrWord nnn, sameExcept_setPc s _⟩,
    fun nnn s => ⟨_, rfl, toNat_indexedTarget nnn _, sameExcept_setPc s _⟩⟩

/-- Groups 5 and 9 take a low nibble of 0 only (30_encoding.md R97). -/
theorem decode_skip_unrecognized {op : BitVec 4} {x y : RegIdx} {n : Nibble} (hop : op = 0x5#4 ∨ op = 0x9#4)
    (hn : n ≠ 0#4) : decode (formatR op x y n) = .unrecognized (formatR op x y n) := by
  rcases hop with rfl | rfl <;> simp only [decode, opField_formatR, nField_formatR, hn, ↓reduceIte]

/-- A skip that is taken when `yes` holds and not when `no` holds. -/
theorem State.skipIf_spec (s : State) {taken : Bool} {yes no : Prop} (hyes : yes → taken = true)
    (hno : no → taken = false) :
    (yes → (s.skipIf taken).pc = s.pc + 4#16) ∧ (no → (s.skipIf taken).pc = s.pc + 2#16) ∧
      sameExcept [] s (s.skipIf taken) := by
  refine ⟨fun h => ?_, fun h => ?_, sameExcept_skipIf s taken⟩
  · rw [State.skipIf_pc, hyes h, if_pos rfl]
  · rw [State.skipIf_pc, hno h, if_neg Bool.false_ne_true]

/-- Settles O32: by the words of formats K and R, and the four comparisons. -/
theorem skipsChooseByComparison : Obligations.SkipsChooseByComparison :=
  ⟨fun x kk => ⟨decode_encode (.seKk x kk), decode_encode (.sneKk x kk)⟩,
    fun x y => ⟨decode_encode (.seReg x y), decode_encode (.sneReg x y)⟩,
    fun _ _ _ hn => ⟨decode_skip_unrecognized (.inl rfl) hn, decode_skip_unrecognized (.inr rfl) hn⟩,
    fun _ _ s => ⟨_, rfl, s.skipIf_spec beq_iff_eq.mpr beq_eq_false_iff_ne.mpr⟩,
    fun _ _ s => ⟨_, rfl, s.skipIf_spec bne_iff_ne.mpr bne_eq_false_iff_eq.mpr⟩,
    fun _ _ s => ⟨_, rfl, s.skipIf_spec beq_iff_eq.mpr beq_eq_false_iff_ne.mpr⟩,
    fun _ _ s => ⟨_, rfl, s.skipIf_spec bne_iff_ne.mpr bne_eq_false_iff_eq.mpr⟩⟩

theorem keyHeld_eq_true_iff (keys : BitVec 16) (k : Byte) :
    keyHeld keys k = true ↔ k.toNat ≤ 15 ∧ keys.getLsbD k.toNat = true := by
  rw [keyHeld, Bool.and_eq_true, decide_eq_true_eq, Config.nKeys_eq, Nat.lt_succ_iff]

/-- Settles O41: by what it is for a key to be held. -/
theorem keySkipsTestHeldKey : Obligations.KeySkipsTestHeldKey := by
  refine ⟨fun x s => ⟨_, rfl, ?skp, sameExcept_skipIf s _⟩, fun x s => ⟨_, rfl, ?sknp, sameExcept_skipIf s _⟩⟩
  case skp => simp only [State.skipIf_pc, keyHeld_eq_true_iff]
  case sknp =>
    simp only [← keyHeld_eq_true_iff, State.skipIf_pc]
    cases keyHeld s.keys (s.reg x) <;> rfl

end Sys2Proof.Machine
end

section
/-! PROOFS. The instructions that write a register, with or without a flag, the index register or a timer
(42_alu.md, 43_index_random.md, 44_keyboard_timers.md). -/

namespace Sys2Proof.Machine

/-! The three shapes of an effect. -/

/-- One register is written, then PC falls through. -/
theorem State.setReg_advance_spec (s : State) (x : RegIdx) (b : Byte) :
    (s.setReg x b).advance.reg x = b ∧ (∀ z, z ≠ x → (s.setReg x b).advance.reg z = s.reg z) ∧
      (s.setReg x b).advance.pc = s.pc + 2#16 ∧ sameExcept [.regs] s (s.setReg x b).advance :=
  ⟨State.reg_setReg_self s x b, fun _ hz => State.reg_setReg_ne s b hz, rfl,
    sameExcept_advance (sameExcept_setReg s x b)⟩

/-- VF takes a flag, then one register the result, then PC falls through. -/
theorem State.writeFlagThenResult_advance_spec (s : State) (x : RegIdx) (f : Bool) (b : Byte) :
    (s.writeFlagThenResult x f b).advance.reg x = b ∧
      (x ≠ 0xF#4 → (s.writeFlagThenResult x f b).advance.reg 0xF#4 = flagByte f) ∧
      (∀ z, z ≠ x → z ≠ 0xF#4 → (s.writeFlagThenResult x f b).advance.reg z = s.reg z) ∧
      (s.writeFlagThenResult x f b).advance.pc = s.pc + 2#16 ∧
      sameExcept [.regs] s (s.writeFlagThenResult x f b).advance := by
  refine ⟨?result, fun hx => State.reg_flag_writeFlagThenResult s hx f b, fun z hzx hzf => ?others, rfl,
    sameExcept_advance (sameExcept_writeFlagThenResult s x f b)⟩
  case result => rw [State.advance_reg, State.reg_writeFlagThenResult, if_pos rfl]
  case others => rw [State.advance_reg, State.reg_writeFlagThenResult, if_neg hzx, if_neg hzf]

/-- I is written, then PC falls through. -/
theorem State.setIndex_advance_spec (s : State) (w : Word) :
    (s.setIndex w).advance.i = w ∧ (s.setIndex w).advance.pc = s.pc + 2#16 ∧
      sameExcept [.index] s (s.setIndex w).advance :=
  ⟨rfl, rfl, sameExcept_advance (sameExcept_setIndex s w)⟩

/-! One register. -/

/-- Settles O33: one register is written, with the byte or with the sum. -/
theorem immediateLoadAndAdd : Obligations.ImmediateLoadAndAdd := by
  refine ⟨fun x kk => ⟨decode_encode (.ldKk x kk), decode_addKk x kk⟩,
    fun x kk s => ⟨_, rfl, s.setReg_advance_spec x kk⟩, fun x kk s => ?add⟩
  obtain ⟨hx, hrest⟩ := s.setReg_advance_spec x (s.reg x + kk)
  exact ⟨_, exec_addKk x kk s, by rw [hx, BitVec.toNat_add], hrest⟩

/-- Settles O34: one register is written, bit by bit for the three operations. -/
theorem copyAndBitwiseOps : Obligations.CopyAndBitwiseOps := by
  refine ⟨fun x y => ⟨decode_encode (.ldReg x y), decode_encode (.orReg x y), decode_encode (.andReg x y),
    decode_encode (.xorReg x y)⟩, fun x y s => ⟨_, rfl, s.setReg_advance_spec x (s.reg y)⟩,
    fun x y s => ?or, fun x y s => ?and, fun x y s => ?xor⟩
  case or =>
    obtain ⟨hx, hrest⟩ := s.setReg_advance_spec x (s.reg x ||| s.reg y)
    exact ⟨_, rfl, fun b => (congrArg (BitVec.getLsbD · b) hx).trans BitVec.getLsbD_or, hrest⟩
  case and =>
    obtain ⟨hx, hrest⟩ := s.setReg_advance_spec x (s.reg x &&& s.reg y)
    exact ⟨_, rfl, fun b => (congrArg (BitVec.getLsbD · b) hx).trans BitVec.getLsbD_and, hrest⟩
  case xor =>
    obtain ⟨hx, hrest⟩ := s.setReg_advance_spec x (s.reg x ^^^ s.reg y)
    exact ⟨_, rfl, fun b => (congrArg (BitVec.getLsbD · b) hx).trans BitVec.getLsbD_xor, hrest⟩

/-- Settles O40: the byte drawn, masked, is written to one register. -/
theorem randomByteIsMasked : Obligations.RandomByteIsMasked := by
  intro x kk s
  obtain ⟨hx, hothers, hpc, -⟩ := s.countDraw.setReg_advance_spec x (Config.randomSource s.draws &&& kk)
  refine ⟨_, rfl, fun b => (congrArg (BitVec.getLsbD · b) hx).trans BitVec.getLsbD_and, ?masked, rfl, hothers, hpc,
    sameExcept_after s (.rnd x kk)⟩
  rw [State.advance_reg, State.reg_setReg_self]
  apply BitVec.eq_of_getLsbD_eq
  intro b hb
  simp [hb, Bool.and_assoc]

/-! A flag and a register. -/

theorem flagByte_decide (p : Prop) [Decidable p] : flagByte (decide p) = if p then 1#8 else 0#8 := by
  simp only [flagByte, decide_eq_true_eq]
  rfl

theorem toNat_flagByte (b : Bool) : (flagByte b).toNat = b.toNat := by
  cases b <;> rfl

/-- Settles O35: the sum and the carry out of bit 7. -/
theorem addRegistersSetsCarry : Obligations.AddRegistersSetsCarry := by
  intro x y s
  obtain ⟨hx, hflag, hrest⟩ :=
    s.writeFlagThenResult_advance_spec x (carryOut (s.reg x) (s.reg y)) (s.reg x + s.reg y)
  exact ⟨_, rfl, (congrArg BitVec.toNat hx).trans (BitVec.toNat_add _ _),
    fun hne => (hflag hne).trans (flagByte_decide _), hrest⟩

theorem toNat_sub_byte (a b : Byte) : (a - b).toNat = (a.toNat + 256 - b.toNat) % 256 := by
  have hb := b.isLt
  rw [BitVec.toNat_sub]
  omega

/-- Settles O36: the two differences, each with its own not-borrow. -/
theorem subtractSetsNotBorrow : Obligations.SubtractSetsNotBorrow := by
  refine ⟨fun x y s => ?sub, fun x y s => ?subn⟩
  case sub =>
    obtain ⟨hx, hflag, hrest⟩ :=
      s.writeFlagThenResult_advance_spec x (notBorrow (s.reg x) (s.reg y)) (s.reg x - s.reg y)
    exact ⟨_, rfl, (congrArg BitVec.toNat hx).trans (toNat_sub_byte _ _),
      fun hne => (hflag hne).trans (flagByte_decide _), hrest⟩
  case subn =>
    obtain ⟨hx, hflag, hrest⟩ :=
      s.writeFlagThenResult_advance_spec x (notBorrow (s.reg y) (s.reg x)) (s.reg y - s.reg x)
    exact ⟨_, rfl, (congrArg BitVec.toNat hx).trans (toNat_sub_byte _ _),
      fun hne => (hflag hne).trans (flagByte_decide _), hrest⟩

theorem toNat_shiftedOutLow (vx : Byte) : (shiftedOutLow vx).toNat = vx.toNat % 2 := by
  rw [shiftedOutLow, BitVec.getLsbD, Nat.toNat_testBit, pow_zero, Nat.div_one]

theorem toNat_shiftedOutHigh (vx : Byte) : (shiftedOutHigh vx).toNat = vx.toNat / 128 := by
  have hvx := vx.isLt
  rw [shiftedOutHigh, BitVec.getLsbD, Nat.toNat_testBit]
  omega

theorem toNat_shiftRight_one (vx : Byte) : (vx >>> 1).toNat = vx.toNat / 2 := by
  rw [BitVec.toNat_ushiftRight, Nat.shiftRight_one]

theorem toNat_shiftLeft_one (vx : Byte) : (vx <<< 1).toNat = vx.toNat * 2 % 256 := by
  rw [BitVec.toNat_shiftLeft, Nat.shiftLeft_eq, pow_one]

/-- Settles O37: the half or the double, and the bit that falls out. -/
theorem shiftsSetEvictedBit : Obligations.ShiftsSetEvictedBit := by
  refine ⟨fun x y s => ?shr, fun x y s => ?shl⟩
  case shr =>
    obtain ⟨hx, hflag, hrest⟩ :=
      s.writeFlagThenResult_advance_spec x (shiftedOutLow (s.reg x)) (s.reg x >>> 1)
    exact ⟨_, rfl, fun _ => rfl, (congrArg BitVec.toNat hx).trans (toNat_shiftRight_one _),
      fun hne => ((congrArg BitVec.toNat (hflag hne)).trans (toNat_flagByte _)).trans (toNat_shiftedOutLow _), hrest⟩
  case shl =>
    obtain ⟨hx, hflag, hrest⟩ :=
      s.writeFlagThenResult_advance_spec x (shiftedOutHigh (s.reg x)) (s.reg x <<< 1)
    exact ⟨_, rfl, fun _ => rfl, (congrArg BitVec.toNat hx).trans (toNat_shiftLeft_one _),
      fun hne => ((congrArg BitVec.toNat (hflag hne)).trans (toNat_flagByte _)).trans (toNat_shiftedOutHigh _), hrest⟩

/-! The index register. -/

/-- Settles O38: I is written with the zero-extended address or the glyph's. -/
theorem setIndexAndGlyphAddress : Obligations.SetIndexAndGlyphAddress := by
  refine ⟨fun nnn => decode_encode (.ldI nnn), fun x => decode_encode (.ldFVx x), fun nnn s => ?ldI, fun x s => ?ldF⟩
  case ldI =>
    obtain ⟨hi, hrest⟩ := s.setIndex_advance_spec (addrWord nnn)
    exact ⟨_, rfl, (congrArg BitVec.toNat hi).trans (toNat_addrWord nnn), hrest⟩
  case ldF =>
    obtain ⟨hi, hrest⟩ := s.setIndex_advance_spec (glyphAddress (s.reg x))
    exact ⟨_, rfl, (congrArg BitVec.toNat hi).trans (toNat_glyphAddress _), hrest⟩

/-- Settles O39: I is written with the sum mod 65536. -/
theorem addIndexWrapsWithoutFlag : Obligations.AddIndexWrapsWithoutFlag := by
  intro x s
  obtain ⟨hi, hrest⟩ := s.setIndex_advance_spec (indexSum s.i (s.reg x))
  exact ⟨_, rfl, (congrArg BitVec.toNat hi).trans (toNat_indexSum _ _), hrest⟩

/-! Keys and timers. -/

theorem leastKey_eq_some {keys : BitVec 16} {k : Nat} (hk : k < 16) (hheld : keys.getLsbD k = true)
    (hleast : ∀ j < k, keys.getLsbD j = false) : leastKey keys = some k :=
  List.find?_range_eq_some.mpr ⟨hheld, List.mem_range.mpr hk, fun j hj => by simp [hleast j hj]⟩

/-- Settles O42: the scan finds the least held key, or none. -/
theorem keyWaitTakesLeastKeyOrHolds : Obligations.KeyWaitTakesLeastKeyOrHolds := by
  refine ⟨fun x s k hk hheld hleast => ?takes,
    fun x s hkeys => (exec_of_fatalCheck_none rfl).trans (congrArg _ (State.after_ldVxK_of_none hkeys))⟩
  have hafter : s.after (.ldVxK x) = (s.setReg x (BitVec.ofNat 8 k)).advance := by
    rw [State.after, leastKey_eq_some hk hheld hleast, Option.elim_some]
  obtain ⟨hx, hrest⟩ := s.setReg_advance_spec x (BitVec.ofNat 8 k)
  refine ⟨_, (exec_of_fatalCheck_none rfl).trans (congrArg _ hafter), ?_, hrest⟩
  rw [hx, BitVec.toNat_ofNat]
  omega

/-- Settles O43: a register takes DT, or DT or ST takes a register. -/
theorem timerMovesCopy : Obligations.TimerMovesCopy :=
  ⟨fun x => ⟨decode_encode (.ldVxDt x), decode_encode (.ldDtVx x), decode_encode (.ldStVx x)⟩,
    fun x s => ⟨_, rfl, s.setReg_advance_spec x s.dt⟩,
    fun x s => ⟨_, rfl, rfl, rfl, sameExcept_after s (.ldDtVx x)⟩,
    fun x s => ⟨_, rfl, rfl, rfl, sameExcept_after s (.ldStVx x)⟩⟩

end Sys2Proof.Machine
end

section
/-! PROOFS. The stores and the load between registers and memory, each whole or fatal (45_memory_transfer.md R180 to
R183). -/

namespace Sys2Proof.Machine

/-- Settles O44: the three digits by what the store leaves, or the cause table's row. -/
theorem storeDecimalDigits : Obligations.StoreDecimalDigits := by
  refine ⟨fun x s hin => ?stores, fun x s hout => exists_next_of_fatalCheck_some (if_pos hout)⟩
  have hx := (s.reg x).isLt
  refine ⟨_, exec_ldBVx_inside hin, ?hundreds, ?tens, ?ones, fun a ha => ?outside, rfl, sameExcept_after s (.ldBVx x)⟩
  case outside =>
    rw [State.read_after_ldBVx, byteAfterDecimalStore, if_neg (by omega), if_neg (by omega), if_neg (by omega)]
  case hundreds =>
    rw [State.read_after_ldBVx, byteAfterDecimalStore, if_pos rfl, BitVec.toNat_ofNat]
    omega
  case tens =>
    rw [State.read_after_ldBVx, byteAfterDecimalStore, if_neg (by omega), if_pos rfl, BitVec.toNat_ofNat]
    omega
  case ones =>
    rw [State.read_after_ldBVx, byteAfterDecimalStore, if_neg (by omega), if_neg (by omega), if_pos rfl,
      BitVec.toNat_ofNat]
    omega

/-- Settles O45: the registers by what the store leaves, or the cause table's row. -/
theorem storeRegisterBlock : Obligations.StoreRegisterBlock := by
  refine ⟨fun x s hin => ?stores, fun x s hout => exists_next_of_fatalCheck_some (if_pos hout)⟩
  refine ⟨_, exec_ldMemVx_inside hin, fun z hz => ?inside, fun a ha => ?outside, rfl, sameExcept_after s (.ldMemVx x)⟩
  case inside => rw [State.read_after_ldMemVx, byteAfterBlockStore_register hz]
  case outside => rw [State.read_after_ldMemVx, byteAfterBlockStore, if_neg (by omega)]

/-- Settles O46: the registers by what the load leaves, or the cause table's row. -/
theorem loadRegisterBlock : Obligations.LoadRegisterBlock := by
  refine ⟨fun x s hin => ?loads, fun x s hout => exists_next_of_fatalCheck_some (if_pos hout)⟩
  refine ⟨_, exec_ldVxMem_inside hin, fun z hz => ?inside, fun z hz => ?above, State.pc_after_ldVxMem x s,
    sameExcept_after s (.ldVxMem x)⟩
  case inside => rw [State.reg_after_ldVxMem, if_pos hz]
  case above => rw [State.reg_after_ldVxMem, if_neg (by omega)]

end Sys2Proof.Machine
end

section
/-! PROOFS. The host's events and the state after reset (10_state.md R38, 60_exceptions.md R211 to R214,
70_reset_and_hazards.md R230 to R233). -/

namespace Sys2Proof.Machine

/-! Events on a stopped core and on a running one. -/

theorem tick_of_stopped {s : State} {r : FaultRecord} (h : s.fault = some r) : tick s = s := by
  rw [tick, h]

theorem hostSetKeys_of_stopped {s : State} {r : FaultRecord} (h : s.fault = some r) (m : BitVec 16) :
    hostSetKeys m s = s := by
  rw [hostSetKeys, h]

theorem hostClearDirty_of_stopped {s : State} {r : FaultRecord} (h : s.fault = some r) : hostClearDirty s = s := by
  rw [hostClearDirty, h]

theorem step_of_stopped {s : State} {r : FaultRecord} (h : s.fault = some r) : step s = .fault (.halted r) := by
  rw [step, stepWith, h]

theorem apply_hostLoad_too_long (c : Session) {image : List Byte} (h : 3584 < image.length) :
    c.apply (.hostLoad image) = .refused (.imageTooLong image.length) := by
  have hfits : imageWellFormed image = false :=
    Bool.eq_false_of_not_eq_true fun hfits => absurd ((imageWellFormed_iff image).mp hfits) (by omega)
  simp [Session.apply, hfits]

theorem apply_hostLoad_started {c : Session} (hstarted : c.started = true) {image : List Byte}
    (h : image.length ≤ 3584) : c.apply (.hostLoad image) = .refused .loadAfterFirstStep := by
  simp [Session.apply, (imageWellFormed_iff image).mpr h, hstarted]

theorem apply_hostLoad_enabled {c : Session} (hnew : c.started = false) {image : List Byte}
    (h : image.length ≤ 3584) : c.apply (.hostLoad image) = .next ⟨hostLoad image c.core, false⟩ := by
  simp [Session.apply, (imageWellFormed_iff image).mpr h, hnew]

/-- Settles O9: each event of a stopped core by itself; the load is refused for its length or for the Step before. -/
theorem faultedCoreMovesOnlyByReset : Obligations.FaultedCoreMovesOnlyByReset := by
  intro c r hfault
  refine ⟨step_of_stopped hfault, ?step, ?tick, fun m => ?keys, ?clear, fun hstarted image => ?load, _, rfl, rfl⟩
  case step => simp only [Session.apply, step_of_stopped hfault]
  case tick => rw [Session.apply, tick_of_stopped hfault]
  case keys => rw [Session.apply, hostSetKeys_of_stopped hfault]
  case clear => rw [Session.apply, hostClearDirty_of_stopped hfault]
  case load =>
    have hstarted : c.started = true := hstarted (by simp [hfault])
    split
    · exact apply_hostLoad_too_long c ‹_›
    · exact apply_hostLoad_started hstarted (by omega)

theorem tick_of_running {s : State} (h : s.fault = none) :
    tick s = (s.setDelay (countDown s.dt)).setSound (countDown s.st) := by
  simp only [tick, h, State.setDelay, State.setSound]

theorem toNat_countDown (t : Byte) : (countDown t).toNat = t.toNat - 1 := by
  unfold countDown
  split
  case isTrue hzero => rw [hzero]; rfl
  case isFalse hpos => bv_omega

/-- Settles O51: each timer counts down by itself. -/
theorem tickCountsBothTimersDown : Obligations.TickCountsBothTimersDown := by
  intro s hrun
  rw [tick_of_running hrun]
  exact ⟨toNat_countDown s.dt, toNat_countDown s.st, rfl,
    sameExcept_trans (sameExcept_mono (sameExcept_setDelay s _) (by decide))
      (sameExcept_mono (sameExcept_setSound _ _) (by decide))⟩

theorem sameExcept_hostSetKeys (m : BitVec 16) (s : State) : sameExcept [.keys] s (hostSetKeys m s) := by
  rw [hostSetKeys_eq]
  intro p hp
  cases p with
  | keys => simp at hp
  | regs | memory => exact fun _ => rfl
  | display => exact fun _ _ => rfl
  | _ => rfl

theorem sameExcept_withDirty (s : State) (b : Bool) : sameExcept [.dirty] s (s.withDirty b) := by
  intro p hp
  cases p with
  | dirty => simp at hp
  | regs | memory => exact fun _ => rfl
  | display => exact fun _ _ => rfl
  | _ => rfl

/-- Settles O52: each write replaces its one field. -/
theorem hostWritesKeysAndClearsDirty : Obligations.HostWritesKeysAndClearsDirty := by
  refine fun s m hrun => ⟨⟨?keys, ?pc, sameExcept_hostSetKeys m s⟩, ?clear⟩
  case keys => simp only [hostSetKeys, hrun]
  case pc => rw [hostSetKeys_eq]
  case clear =>
    rw [hostClearDirty_of_running hrun]
    exact ⟨rfl, rfl, sameExcept_withDirty s false⟩

/-- Settles O53: a load that is enabled writes the image as a list from 0x200; the other two are refused. -/
theorem hostLoadCopiesImageVerbatim : Obligations.HostLoadCopiesImageVerbatim := by
  refine ⟨fun c image hnew hfits => ?copies, fun c image hlong => apply_hostLoad_too_long c hlong,
    fun c image hstarted hfits => apply_hostLoad_started hstarted hfits⟩
  exact ⟨_, apply_hostLoad_enabled hnew hfits, rfl, fun k hk => Memory.read_writeList_at _ _ image k hk,
    fun a ha => Memory.read_writeList_outside _ _ image a ha, rfl, sameExcept_setMem c.core _⟩

/-! The state after reset. -/

/-- Settles O54: field by field. -/
theorem resetStateIsZeroedExceptPcAndDirty : Obligations.ResetStateIsZeroedExceptPcAndDirty :=
  ⟨fun _ => Vector.getElem_replicate _, rfl, rfl, fun _ _ => Vector.getElem_replicate _, rfl, rfl, rfl, rfl,
    fun _ => rfl, Display.pixel_blank, rfl, rfl⟩

/-- Settles O55: Reset answers the reset state with the draws that were made. -/
theorem resetAppliesFromAnyState : Obligations.ResetAppliesFromAnyState := by
  refine fun c => ⟨_, rfl, rfl, rfl, rfl, fun p hp => ?_⟩
  cases p with
  | draws => simp at hp
  | regs | memory => exact fun _ => rfl
  | display => exact fun _ _ => rfl
  | _ => rfl

end Sys2Proof.Machine
end
